-- ==== Sys2Proof/Word.lean ====
section
/-! DEFINITION. Word.lean: the index and word types of the Telmor TC44 model. -/

namespace Sys2Proof

/-- One byte of a notice, a vehicle record, a stage message or the configuration image (R190). -/
abbrev Byte := BitVec 8

/-- A two-byte field of a record or of a stage message. -/
abbrev Word16 := BitVec 16

/-- A physical port, 0-3 (00_scope.md §4). -/
abbrev PortId := Fin 4

/-- A logical pad, 0-3 (00_scope.md §4). -/
abbrev PadId := Fin 4

/-- A node id, 0-15 (00_scope.md §4). -/
abbrev NodeId := Fin 16

end Sys2Proof
end

