-- ==== Sys2Proof/Syntax.lean ====
section
/-! DEFINITION. Syntax.lean: the commands of the TC44, one constructor for each row of spec/opcode_table.json, with the
operands the event brings from outside the part. -/

namespace Sys2Proof

/-- A frame's header and body as the Line Receiver decodes them (R64, R191): not yet checked for kind, sender range or
body. The length byte of the header is the body's length. -/
structure Frame where
  kind : Byte
  sender : Byte
  feeder : Byte
  body : List Byte
  deriving DecidableEq, Repr

/-- The fields of a DOCK record (R192). An absent field is `none`. -/
structure DockRecord where
  vehicle : BitVec 32
  cls : Byte
  energy : Word16
  maxPower : Word16
  deadline : Option Word16
  minPower : Option Word16
  deriving DecidableEq, Repr

/-- The fields of an UPDATE record (R192). -/
structure UpdateRecord where
  energy : Word16
  deadline : Option Word16
  maxPower : Option Word16
  deriving DecidableEq, Repr

/-- The figures of a well-formed stage answer (R156, R192). -/
structure StageAnswer where
  measured : Word16
  voltage : Word16
  fault : Bool
  deriving DecidableEq, Repr

/-- What failed a configuration read attempt (R185). -/
inductive ReadFailure where
  | noAcknowledge
  | busHeldLow
  | timedOut
  deriving DecidableEq, Repr

/-- What made a frame bad (R44, R45). -/
inductive BadCause where
  /-- six ones, then a 0 (R44) -/
  | sixOnes
  /-- six to nine zeros, then a 1 (R44) -/
  | sixZeros
  /-- content past 261 bytes, shown by a 0 (R44, log 25) -/
  | tooLong
  /-- an end off a byte boundary, too short, with a wrong length or with a bad CRC (R45) -/
  | badEnd
  /-- an end whose seven ones follow the SOF's closing 1 at once: eight quiet bit times and no content (R44, R45) -/
  | bareEnd
  deriving DecidableEq, Repr

/-- What the line has shown the transmitter since its quiet count was last set (R77): whether some bit time read 0,
and how many bit times have read 1 since the last 0 (or since the count was set). -/
structure LineRun where
  zero : Bool
  ones : Nat
  deriving DecidableEq, Repr

/-- The commands. `age` is the time in ms from a frame's SOF mark to its classification (R43). -/
inductive Instr where
  | reset
  | startupBegin (straps : BitVec 4)
  | configReadAttemptFail (cause : ReadFailure)
  | configReadRetry
  | configReadComplete (image : List Byte) (presence : BitVec 4)
  | presenceRise (port : PortId)
  | presenceFall (port : PortId)
  | malformedRecord (port : PortId)
  | dock (port : PortId) (r : DockRecord)
  | update (port : PortId) (r : UpdateRecord)
  | depart (port : PortId) (vehicle : BitVec 32)
  | unknownKindRecord (port : PortId) (kind : Byte)
  | recordInConfigFail (port : PortId) (kind : Byte)
  | padReply (port : PortId)
  | contactLoss (port : PortId)
  | secondMark
  | roundBoundary
  | frameGood (f : Frame) (age : Nat)
  | frameBad (cause : BadCause) (age : Nat)
  | frameAborted (age : Nat)
  | noticeRejected
  | drainClaim
  | drainAnnounce
  | drainStatus
  | drainCurtail
  | directiveClear
  | directivePadOffline
  | directivePadOnline
  | computeCompletion
  | attemptStart (run : LineRun)
  | transmissionComplete
  | collision
  | abortEnd
  | curtailAssertion
  | curtailRelease
  | measureTickSend (port : PortId)
  | statusArrival (port : PortId) (a : StageAnswer)
  | noAnswer (port : PortId)
  | retryTimerExpiry (port : PortId)
  deriving DecidableEq, Repr

end Sys2Proof
end

