-- ==== Sys2Proof/Decode.lean ====
section
/-! DEFINITION. Decode.lean: the commands that a word of the table spells. -/

namespace Sys2Proof

/-- No row of spec/opcode_table.json gives bits (every `fields` is empty and there is no `fixed`), so no word spells a
command (log 2). -/
def decodeTableWord (_nbits _w : Nat) : Option Instr := none

end Sys2Proof
end

