-- ==== Sys2Proof/Config.lean ====
section
/-! DEFINITION. Config.lean: what the configuration image fixes from start-up to the next reset (R187, R188), the
figures the manual fixes for every part, and the free values of the points the manual leaves open. -/

namespace Sys2Proof

/-- The seven pad conditions (R169). -/
inductive Cond where
  | overDraw | noDraw | contactLoss | taper | stageFault | busLow | busHigh
  deriving DecidableEq, Repr

/-- The responses (R169), in the order of their codes in the image (R193), which is also the order of their priority. -/
inductive Response where
  | latch | retryLong | retryShort | holdWhile | report | ignore
  deriving DecidableEq, Repr

/-- The three align modes (R187, R193). -/
inductive AlignMode where
  | continuous | once | monitor
  deriving DecidableEq, Repr

/-- The configured response of each pad condition (R169). -/
structure ResponseTable where
  overDraw : Response
  noDraw : Response
  contactLoss : Response
  taper : Response
  stageFault : Response
  busLow : Response
  busHigh : Response
  deriving DecidableEq, Repr

/-- The configured response of one condition. -/
def ResponseTable.of (t : ResponseTable) : Cond → Response
  | .overDraw => t.overDraw
  | .noDraw => t.noDraw
  | .contactLoss => t.contactLoss
  | .taper => t.taper
  | .stageFault => t.stageFault
  | .busLow => t.busLow
  | .busHigh => t.busHigh

/-- The default responses of R169. -/
def ResponseTable.defaults : ResponseTable where
  overDraw := .retryShort
  noDraw := .retryLong
  contactLoss := .latch
  taper := .report
  stageFault := .latch
  busLow := .holdWhile
  busHigh := .holdWhile

/-- What the Configuration Loader holds after the clamps of R187, with the solo allowance S of R188. -/
structure Configuration where
  feederId : Nat
  nCfg : Nat
  lCfg : Nat
  guard : Nat
  dUp : Nat
  pc : Nat
  window : Nat
  vLow : Nat
  vHigh : Nat
  portMap : Vector (Option PadId) 4
  rating : Vector Nat 4
  responses : ResponseTable
  align : AlignMode
  alertRoute : Bool
  clamped : Bool
  solo : Nat
  deriving DecidableEq, Repr

/-- The configuration before any image has been read. DESIGN CHOICE (log 5), unsafe: the manual gives these fields
no value before start-up completes. -/
def Configuration.blank : Configuration where
  feederId := 0
  nCfg := 0
  lCfg := 0
  guard := 0
  dUp := 0
  pc := 0
  window := 0
  vLow := 0
  vHigh := 0
  portMap := Vector.replicate 4 none
  rating := Vector.replicate 4 0
  responses := ResponseTable.defaults
  align := .continuous
  alertRoute := false
  clamped := false
  solo := 0

/-! ### Free values

Each is a constant without a body, applied to the plain counter `State.choice`: nothing in Lean can evaluate one. -/

/-- R180: of the health changes that one event makes, which is taken first. DESIGN CHOICE (log 6), safe. -/
opaque Config.firstReport : Nat → Nat

/-- R118: whether a request made at a round boundary reaches the Allocation Engine before the boundary does.
DESIGN CHOICE (log 7), safe. -/
opaque Config.requestFirst : Nat → Bool

/-- R53, R56: whether the ANNOUNCE count is raised before a HUNT entry made at the same round boundary.
DESIGN CHOICE (log 8), safe. -/
opaque Config.announceBeforeHunt : Nat → Bool

/-- R165: whether the clears of one tick reach the Fault Supervisor before its raises. DESIGN CHOICE (log 9), safe. -/
opaque Config.clearsFirst : Nat → Bool

/-! ### Figures the manual fixes for every part -/

/-- Read attempts before CONFIG_FAIL (R185). -/
def Config.readAttempts : Nat := 4
/-- Milliseconds within which a begun attempt reads all bytes (R185). -/
def Config.readWindow : Nat := 30
/-- Milliseconds within which an attempt that is due begins (R185). -/
def Config.beginWindow : Nat := 10
/-- Milliseconds from a failed attempt to the next (R185). -/
def Config.readPause : Nat := 10
/-- Milliseconds for which a presence input holds its new level before an edge (R4). -/
def Config.presenceTime : Nat := 50
/-- Milliseconds for which the CURTAIL pin holds its new level before an edge (R142). -/
def Config.curtailTime : Nat := 20
/-- Microseconds for which RESET is held low before it is a reset (R184, R194). -/
def Config.resetTime : Nat := 1000
/-- The supply in mV below which the part holds itself in reset (R184, R194). -/
def Config.supplyMin : Nat := 2850
/-- Milliseconds of silence that raise CONTACT_LOSS (R19). -/
def Config.silenceTime : Nat := 6000
/-- Milliseconds a stage has to answer (R155). -/
def Config.answerWindow : Nat := 30
/-- Milliseconds between measure ticks of a port (R155). -/
def Config.tickPeriod : Nat := 100
/-- Milliseconds between the first ticks of neighbouring ports (R155). -/
def Config.tickOffset : Nat := 25
/-- The longest time of a compute in ms (R117, R119). -/
def Config.computeTime : Nat := 3
/-- Milliseconds within which a pad reply begins (R7). -/
def Config.replyTime : Nat := 20
/-- The nominal round in ms (R105). -/
def Config.nominalRound : Nat := 500
/-- Accumulator units in one eu (R23). -/
def Config.euTicks : Nat := 36000
/-- The largest energy a record can ask for (R9). -/
def Config.maxEnergy : Nat := 20000
/-- The highest measured power taken in (R24, R156). -/
def Config.maxMeasured : Nat := 4000
/-- The highest bus voltage taken in (R156). -/
def Config.maxVoltage : Nat := 1000
/-- Capacity of the Receive Queue (R64). -/
def Config.receiveDepth : Nat := 3
/-- Capacity of the URGENT queue (R74). -/
def Config.urgentDepth : Nat := 2
/-- The largest quiet count any start can call for (R77). -/
def Config.quietMax : Nat := 236

/-- The retry time of a response in ms: 5,000 for RETRY_SHORT, 30,000 for RETRY_LONG (R171). -/
def Config.retryTime : Response → Nat
  | .retryLong => 30000
  | _ => 5000

end Sys2Proof
end

