-- ==== Sys2Proof/Machine/State.lean ====
section
/-! DEFINITION. Machine/State.lean: the state of one TC44 as plain data, and its value right after reset. Every piece of
state the spec names is here under the block that owns it (00_scope.md §3.1); INVENTORY.md lists each with its rule. -/

namespace Sys2Proof.Machine

/-! ### Start-up (chapter 12) -/

/-- The start-up operation of the Configuration Loader (R184, R185, R188, R189). -/
inductive Boot where
  /-- reset is held, or has just ended and the straps are not yet read -/
  | held
  /-- read attempt `attempt` (1-4) is due and has not begun for `elapsed` ms: the bus is held low -/
  | due (attempt elapsed : Nat)
  /-- read attempt `attempt` (1-4) began `elapsed` ms ago -/
  | reading (attempt elapsed : Nat)
  /-- `attempts` attempts have failed; `elapsed` ms since the latest ended -/
  | waiting (attempts elapsed : Nat)
  | running
  | configFail
  deriving DecidableEq, Repr

/-! ### Pins -/

/-- The levels on the pins that the part reads over one millisecond. The surroundings set them (log 21). -/
structure Pins where
  /-- the CURTAIL pin: true is asserted (R142) -/
  curtail : Bool
  /-- the presence inputs of ports 0-3: true is asserted (R3, R4) -/
  presence : BitVec 4
  /-- an I2C line is held low by another than the part (R185) -/
  busLow : Bool
  /-- µs at the start of this millisecond for which RESET is low; 1000 is low throughout (R184) -/
  resetLead : Nat
  /-- µs at the end of this millisecond for which RESET is low; 1000 is low throughout (R184) -/
  resetTail : Nat
  /-- the lowest supply of this millisecond in mV (R184, R194) -/
  supply : Nat
  deriving DecidableEq, Repr

/-! ### Pad sessions and contact links (chapters 1 and 2) -/

/-- The state of a session record (R1, R2). -/
inductive PadState where
  | vacant | arrived | waiting | charging | complete | held | offline
  deriving DecidableEq, Repr

/-- The session record (R1). -/
structure Session where
  state : PadState
  vehicle : BitVec 32
  cls : Nat
  energy : Nat
  acc : Nat
  timeLeft : Option Nat
  pMax : Nat
  pMin : Option Nat
  cap : Option Nat
  urgency : Nat
  ask : Nat
  floor : Nat
  overdue : Bool
  /-- node timebase at the end of the latest accepted record -/
  lastHeard : Option Nat
  /-- node timebase at which the contact silence watch last started (R19); none while it is stopped -/
  watch : Option Nat
  /-- CONTACT_LOSS present (R19) -/
  contactLoss : Bool
  /-- contact error count -/
  errors : Nat
  deriving DecidableEq, Repr

/-- The no-session value of every field (R1), in the given state and keeping the contact error count (R16). -/
def Session.empty (state : PadState) (errors : Nat) : Session where
  state := state
  vehicle := 0
  cls := 0
  energy := 0
  acc := 0
  timeLeft := none
  pMax := 0
  pMin := none
  cap := none
  urgency := 0
  ask := 0
  floor := 0
  overdue := false
  lastHeard := none
  watch := none
  contactLoss := false
  errors := errors

/-- Reason codes of a pad reply (R8). -/
inductive Reason where
  | ok | noPresence | offline | fault | badRequest
  deriving DecidableEq, Repr

/-- A pad reply (R7). `pad` is the logical pad, or the physical port in CONFIG_FAIL (R15). -/
structure Reply where
  pad : Nat
  state : PadState
  setpoint : Nat
  energy : Nat
  reason : Reason
  deriving DecidableEq, Repr

/-- A contact link (R7): the reply formed and not yet sent with its age in ms, and the reply sent last (the model's own
field, log 19). -/
structure Link where
  reply : Option (Reply × Nat)
  sent : Option Reply
  deriving DecidableEq, Repr

/-! ### Stage ports (chapter 10) -/

/-- The Stage Controller's record of one port (R154). -/
structure Stage where
  setpoint : Nat
  tick : Nat
  prev : Nat
  enable : Bool
  latest : Nat
  odCount : Nat
  odPresent : Bool
  ndSteady : Nat
  ndLow : Nat
  ndPresent : Bool
  tpCount : Nat
  tpPresent : Bool
  sfFlag : Nat
  sfSilence : Nat
  sfNormal : Nat
  sfPresent : Bool
  busLow : Bool
  busHigh : Bool
  /-- ms since the send whose answer is awaited (R155) -/
  awaiting : Option Nat
  /-- node timebase of the next measure tick (R155) -/
  nextTick : Nat
  /-- the setpoint message sent last (R192), the model's own field (log 19) -/
  sent : Option (List Byte)
  deriving DecidableEq, Repr

/-- The reset values of R154, with the port's first tick `first` ms after start-up completion (R155). -/
def Stage.reset (first : Nat) : Stage where
  setpoint := 0
  tick := 0
  prev := 0
  enable := false
  latest := 0
  odCount := 0
  odPresent := false
  ndSteady := 0
  ndLow := 0
  ndPresent := false
  tpCount := 0
  tpPresent := false
  sfFlag := 0
  sfSilence := 0
  sfNormal := 0
  sfPresent := false
  busLow := false
  busHigh := false
  awaiting := none
  nextTick := first
  sent := none

/-! ### Fault Supervisor, per pad (chapter 11) -/

/-- An entry of an in-force set (R168): its response, and whether the condition is present now. -/
structure Entry where
  response : Response
  present : Bool
  deriving DecidableEq, Repr

/-- An in-force set (R168): at most one entry for each condition. -/
structure InForce where
  overDraw : Option Entry
  noDraw : Option Entry
  contactLoss : Option Entry
  taper : Option Entry
  stageFault : Option Entry
  busLow : Option Entry
  busHigh : Option Entry
  deriving DecidableEq, Repr

/-- The in-force set with no entry. -/
def InForce.empty : InForce := ⟨none, none, none, none, none, none, none⟩

/-- The Fault Supervisor's fields of one pad (R168). -/
structure PadFault where
  inForce : InForce
  timer : Option Nat
  retries : Nat
  deriving DecidableEq, Repr

/-- The Allocation Engine's fields of one pad (R116). -/
structure PadAlloc where
  grant : Nat
  intent : Nat
  command : Nat
  settled : Nat
  deriving DecidableEq, Repr

/-- Everything kept for one physical port and the logical pad it carries. -/
structure Port where
  session : Session
  /-- the filtered presence level (R3, R4): true is asserted -/
  level : Bool
  /-- ms for which the presence input has held the other level, up to 50 (R4) -/
  change : Nat
  link : Link
  stage : Stage
  alloc : PadAlloc
  fault : PadFault
  deriving DecidableEq, Repr

/-- A port's reset values (R3, R140, R154, R168). -/
def Port.reset (first : Nat) : Port where
  session := Session.empty .vacant 0
  level := false
  change := 0
  link := ⟨none, none⟩
  stage := Stage.reset first
  alloc := ⟨0, 0, 0, 0⟩
  fault := ⟨InForce.empty, none, 0⟩

/-! ### Notices (chapter 4) -/

/-- The node mode (R151). -/
inductive NodeMode where
  | coordinated | solo
  deriving DecidableEq, Repr

/-- A demand entry of a CLAIM (R59). -/
structure ClaimEntry where
  pad : PadId
  cls : Nat
  urgency : Nat
  overdue : Bool
  taper : Bool
  deferred : Bool
  floor : Nat
  ask : Nat
  intent : Nat
  measured : Nat
  deriving DecidableEq, Repr

/-- A CLAIM (R59). -/
structure Claim where
  mode : NodeMode
  short : Bool
  phase : Nat
  draw : Nat
  entries : List ClaimEntry
  deriving DecidableEq, Repr

/-- An ANNOUNCE (R60). -/
structure Announce where
  lCfg : Nat
  guard : Nat
  nCfg : Nat
  pc : Nat
  align : AlignMode
  clamped : Bool
  inService : Nat
  deriving DecidableEq, Repr

/-- The five conditions of the Health Snapshot (R180). -/
structure Health where
  lineInStep : Bool
  solo : Bool
  ceilingReduced : Bool
  padHeldAny : Bool
  phaseOut : Bool
  deriving DecidableEq, Repr

/-- The start values of R180. -/
def Health.start : Health := ⟨false, true, false, false, false⟩

/-- One of the five health conditions. -/
inductive HealthCond where
  | lineInStep | solo | ceilingReduced | padHeldAny | phaseOut
  deriving DecidableEq, Repr

/-- The cause recorded by the Health Snapshot (R61, R180, R181, R182). -/
inductive Cause where
  | none
  | cond (c : HealthCond)
  | changedWhileLatched
  deriving DecidableEq, Repr

/-- The per-pad summary of a STATUS (R61); the masks have the bits of R191. -/
structure Summary where
  state : PadState
  response : Option Response
  entries : Byte
  present : Byte
  reported : Byte
  retries : Nat
  errors : Nat
  deriving DecidableEq, Repr

/-- The counters of a STATUS (R61), in the order of R191. -/
structure Counters where
  bad : Nat
  aborted : Nat
  foreign : Nat
  overruns : Nat
  badKind : Nat
  claimsDropped : Nat
  noticesDropped : Nat
  deriving DecidableEq, Repr

/-- A STATUS (R61). A logical pad that no enabled port carries has no summary. -/
structure Status where
  health : Health
  periodic : Bool
  duplicate : Bool
  cause : Cause
  conflict : Bool
  short : Bool
  headroom : Nat
  mean : Option Int
  pads : Vector (Option Summary) 4
  counters : Counters
  deriving DecidableEq, Repr

/-- A CURTAIL (R62): its action, true for assert, and the sender's percent. -/
structure Curtail where
  assert : Bool
  percent : Nat
  deriving DecidableEq, Repr

/-- The actions of a DIRECTIVE (R63). -/
inductive Action where
  | clear | padOffline | padOnline
  deriving DecidableEq, Repr

/-- A DIRECTIVE (R63): the target byte, the action and the mask. -/
structure Directive where
  target : Nat
  action : Action
  pads : Vector Bool 4
  node : Bool
  deriving DecidableEq, Repr

/-- A notice that has passed the checks of R69. -/
inductive Notice where
  | claim (sender : NodeId) (c : Claim)
  | announce (sender : NodeId) (a : Announce)
  | status (sender : NodeId) (duplicate : Bool)
  | curtail (sender : NodeId) (c : Curtail)
  | directive (d : Directive)
  deriving DecidableEq, Repr

/-! ### Line Receiver (chapters 3 and 4) -/

/-- The line acquisition state. -/
inductive Acq where
  | hunt | trial | inStep
  deriving DecidableEq, Repr

/-- The own round phase and round count at an SOF mark (R43). -/
structure Stamp where
  phase : Nat
  count : Nat
  deriving DecidableEq, Repr

/-- An entry of the Receive Queue (R64). -/
structure Queued where
  notice : Frame
  overrun : Bool
  stamp : Stamp
  deriving DecidableEq, Repr

/-- The Line Receiver's state (R57). -/
structure Line where
  acq : Acq
  trial : Nat
  errors : Nat
  silence : Nat
  heard : Bool
  /-- the listen span (R55): none, or the boundaries counted; 2 is complete -/
  span : Option Nat
  announce : Nat
  bad : Nat
  aborted : Nat
  foreign : Nat
  overruns : Nat
  stamp : Stamp
  queue : List Queued
  deriving DecidableEq, Repr

/-- The reset values of R57. -/
def Line.reset : Line where
  acq := .hunt
  trial := 0
  errors := 0
  silence := 0
  heard := false
  span := none
  announce := 0
  bad := 0
  aborted := 0
  foreign := 0
  overruns := 0
  stamp := ⟨0, 0⟩
  queue := []

/-! ### Notice Transmitter (chapter 5) -/

/-- An own notice of one of the ROUTINE kinds (R74). A STATUS carries its latch or periodic mark in `periodic`. -/
inductive Routine where
  | claim (c : Claim)
  | status (m : Status)
  | announce (a : Announce)
  deriving DecidableEq, Repr

/-- The notice on the line (R74): the head of the URGENT queue, or a ROUTINE notice with its collision count. -/
inductive OnLine where
  | urgent
  | routine (r : Routine) (collisions : Nat)
  deriving DecidableEq, Repr

/-- The Notice Transmitter's state (R86). -/
structure Transmitter where
  urgent : List (Curtail × Nat)
  claim : Option (Claim × Nat)
  status : Option (Status × Nat)
  announce : Option (Announce × Nat)
  /-- the notice on the line, and whether its abort sequence is being sent -/
  onLine : Option (OnLine × Bool)
  quiet : Nat
  backoff : Nat
  lfsr : BitVec 16
  claimsDropped : Nat
  noticesDropped : Nat
  /-- the frame transmitted last, the model's own field (log 19) -/
  sent : Option Frame
  deriving DecidableEq, Repr

/-- The reset values of R86, with the register of R83 at `seed`. -/
def Transmitter.reset (seed : BitVec 16) : Transmitter where
  urgent := []
  claim := none
  status := none
  announce := none
  onLine := none
  quiet := 0
  backoff := 0
  lfsr := seed
  claimsDropped := 0
  noticesDropped := 0
  sent := none

/-! ### Peer Table (chapter 6) -/

/-- The fields of a claimed demand that a Peer Table entry keeps (R87). -/
structure PeerDemand where
  pad : PadId
  cls : Nat
  urgency : Nat
  floor : Nat
  ask : Nat
  intent : Nat
  deriving DecidableEq, Repr

/-- The stored claim of an entry (R87). -/
structure StoredClaim where
  mode : NodeMode
  demands : List PeerDemand
  deriving DecidableEq, Repr

/-- The figures a peer has announced (R87, R94). -/
structure Fingerprint where
  lCfg : Nat
  guard : Nat
  nCfg : Nat
  deriving DecidableEq, Repr

/-- A Peer Table entry (R87). Its state is derived (R89) and never stored. -/
structure PeerEntry where
  heard : Bool
  age : Nat
  claim : Option StoredClaim
  draw : Nat
  fingerprint : Option Fingerprint
  phaseErr : Option Int
  dupMark : Bool
  deriving DecidableEq, Repr

/-- The reset values of R104. -/
def PeerEntry.reset : PeerEntry := ⟨false, 0, none, 0, none, none, false⟩

/-- The states of an entry (R89). -/
inductive PeerState where
  | unheard | live | stale | lost | solo | incompatible | duplicate | self
  deriving DecidableEq, Repr

/-! ### Round Timer (chapter 7) -/

/-- The ONCE state (R111). -/
inductive OnceState where
  | aligning | monitoring
  deriving DecidableEq, Repr

/-- The Round Timer's state (R105). -/
structure Round where
  phase : Nat
  length : Nat
  count : Nat
  mean : Option Int
  lastMean : Option Int
  once : OnceState
  phaseOut : Bool
  /-- the length of the round before, the model's own field (log 14) -/
  prevLength : Nat
  deriving DecidableEq, Repr

/-- The reset values of R105. -/
def Round.reset : Round := ⟨0, 500, 0, none, none, .aligning, false, 500⟩

/-! ### Curtail Monitor (chapter 9) -/

/-- An entry of the Curtail Set (R141). -/
structure CurtailEntry where
  percent : Nat
  age : Nat
  deriving DecidableEq, Repr

/-- The Curtail Monitor's state with the node mode (R141). The Curtail Set is keyed by sender id. -/
structure CurtailMonitor where
  /-- the filtered pin level: true is asserted -/
  pin : Bool
  /-- ms for which the pin has held the other level, up to 20 (R142) -/
  hold : Nat
  localForce : Bool
  set : Vector (Option CurtailEntry) 16
  target : Nat
  ceiling : Nat
  mode : NodeMode
  deriving DecidableEq, Repr

/-- The reset values of R141. -/
def CurtailMonitor.reset (lCfg : Nat) : CurtailMonitor where
  pin := false
  hold := 0
  localForce := false
  set := Vector.replicate 16 none
  target := lCfg
  ceiling := lCfg
  mode := .solo

/-! ### Allocation Engine (chapter 8) -/

/-- The kinds of compute (R117). -/
inductive ComputeKind where
  | regular | outOfRound
  deriving DecidableEq, Repr

/-- An own demand of a snapshot (R38). -/
structure Demand where
  pad : PadId
  cls : Nat
  urgency : Nat
  overdue : Bool
  taper : Bool
  floor : Nat
  ask : Nat
  deriving DecidableEq, Repr

/-- An entry of the Rank List (R124). `intent` is the claimed intent of a peer's entry and is not read of an own one;
`grant` and `deferred` are what the passes have given it. -/
structure Ranked where
  node : NodeId
  own : Bool
  pad : PadId
  cls : Nat
  urgency : Nat
  floor : Nat
  ask : Nat
  intent : Nat
  grant : Nat
  deferred : Bool
  deriving DecidableEq, Repr

/-- A compute in flight (R116, R120). -/
structure Compute where
  kind : ComputeKind
  mode : NodeMode
  demands : List Demand
  budget : Nat
  short : Bool
  ranks : List Ranked
  /-- the own pads eligible at the start (R120), by physical port -/
  eligible : Vector Bool 4
  /-- the own pads that have stopped being eligible since (R137), by physical port -/
  stopped : Vector Bool 4
  /-- ms since the start -/
  elapsed : Nat
  deriving DecidableEq, Repr

/-- The Allocation Engine's node-level state (R116). -/
structure Engine where
  inFlight : Option Compute
  /-- remembered boundary -/
  boundary : Bool
  /-- remembered request -/
  request : Bool
  /-- the ageing of R91 that waits for the compute in flight -/
  agePending : Bool
  /-- the table changes of R103 that wait for the compute in flight -/
  huntPending : Bool
  /-- a request made by the command being executed and not yet served; the model's own field, clear between commands -/
  wanted : Bool
  short : Bool
  headroom : Nat
  completed : Option (ComputeKind × NodeMode)
  deriving DecidableEq, Repr

/-- The reset values of R140. -/
def Engine.reset : Engine where
  inFlight := none
  boundary := false
  request := false
  agePending := false
  huntPending := false
  wanted := false
  short := false
  headroom := 0
  completed := none

/-! ### Fault Supervisor, node level (chapter 11) -/

/-- The Fault Supervisor's node-level state (R168, R180, R183). -/
structure Supervisor where
  /-- CONFIG_CONFLICT present -/
  conflict : Bool
  /-- the five conditions as their owners report them -/
  current : Health
  /-- the health changes made by the command being executed, in order; the model's own field, empty between commands -/
  reports : List (HealthCond × Bool)
  latched : Bool
  recorded : Health
  cause : Cause
  /-- latch-STATUS outstanding -/
  outstanding : Bool
  /-- periodic count -/
  periodic : Nat
  /-- the FAULT pin: true is asserted -/
  faultPin : Bool
  /-- the ALERT pin: true is asserted -/
  alertPin : Bool
  deriving DecidableEq, Repr

/-- The reset values of R183, with FAULT asserted by the start-up sequence (R184). -/
def Supervisor.reset : Supervisor where
  conflict := false
  current := Health.start
  reports := []
  latched := false
  recorded := Health.start
  cause := .none
  outstanding := false
  periodic := 0
  faultPin := true
  alertPin := false

/-! ### The whole -/

/-- The state of one TC44, with the queue of the commands that wait. -/
structure State where
  /-- the commands that wait, first in, first out -/
  pending : List Instr
  /-- how many free values have been taken; the model's own field (log 6) -/
  choice : Nat
  /-- the levels on the pins now; the surroundings' own -/
  pins : Pins
  /-- the levels on the pins in the coming milliseconds, the nearest first; after the last they stay; the surroundings'
  own (log 21) -/
  coming : List Pins
  /-- µs for which RESET has been low at the millisecond mark, up to 1000: the filter of R184 -/
  resetHold : Nat
  boot : Boot
  nodeId : NodeId
  /-- the node timebase: ms since start-up completion -/
  now : Nat
  cfg : Configuration
  ports : Vector Port 4
  line : Line
  tx : Transmitter
  peers : Vector PeerEntry 16
  /-- DUPLICATE_ID latched (R99) -/
  duplicateId : Bool
  /-- the bad-kind count (R69) -/
  badKind : Nat
  round : Round
  curtail : CurtailMonitor
  engine : Engine
  sup : Supervisor
  deriving DecidableEq, Repr

/-- Why a run stops. -/
inductive Fault where
  /-- Raised by a command whose operands spell no event of the part (`Instr.wellFormed` is false): an image that is not
  128 bytes, a body longer than a header can state, a frame longer than any the line carries, an unknown kind that is
  known. Safe: the part meets no such event, and the model claims nothing of it (log 4). -/
  | illFormed
  deriving DecidableEq, Repr

/-- Why the model gives a command no meaning. -/
inductive Refusal where
  /-- Raised for a command that has no meaning yet. Safe: nothing is claimed of it. No command is refused. -/
  | notModelled (mnemonic : String)
  deriving DecidableEq, Repr

/-- Each port's reset values, with port p's first tick 25 × p ms after start-up completion (R155). -/
def State.resetPorts : Vector Port 4 := Vector.ofFn fun p => Port.reset (Config.tickOffset * p.val)

/-- Every block at its reset values under the configuration `cfg` (R184, R188), with no command waiting and every pin
quiet: RESET high and the supply at 3.3 V (log 21). -/
def State.fresh (boot : Boot) (nodeId : NodeId) (cfg : Configuration) (seed : BitVec 16) : State where
  pending := []
  choice := 0
  pins := ⟨false, 0, false, 0, 0, 3300⟩
  coming := []
  resetHold := 0
  boot := boot
  nodeId := nodeId
  now := 0
  cfg := cfg
  ports := State.resetPorts
  line := Line.reset
  tx := Transmitter.reset seed
  peers := Vector.replicate 16 PeerEntry.reset
  duplicateId := false
  badKind := 0
  round := Round.reset
  curtail := CurtailMonitor.reset cfg.lCfg
  engine := Engine.reset
  sup := Supervisor.reset

/-- The part right after reset (R184): every block at its reset values, no configuration read, FAULT asserted, no
command waiting. -/
def State.reset : State := State.fresh .held 0 Configuration.blank 0

/-- The state with the surroundings' own part of `s` in it: the commands that wait, the pins with the RESET filter, and the
count of free values (log 27). -/
def State.under (t s : State) : State :=
  { t with pending := s.pending, choice := s.choice, pins := s.pins, coming := s.coming, resetHold := s.resetHold }

end Sys2Proof.Machine
end

