-- ==== Sys2Proof/Machine/Operands.lean ====
section
/-! DEFINITION. Machine/Operands.lean: the layouts of chapter 13 and the checks and clamps that stand between what
arrives and what a command uses: notices (R69, R191), vehicle records (R9, R192) and the image (R186, R187, R193). -/

namespace Sys2Proof.Machine

/-! ### Bytes (R190) -/

/-- A two-byte field, most significant byte first (R190). -/
def be16 (hi lo : Byte) : Nat := hi.toNat * 256 + lo.toNat

/-- The high byte of a two-byte field. -/
def hiByte (n : Nat) : Byte := BitVec.ofNat 8 (n / 256)

/-- The low byte of a two-byte field, and a one-byte field. -/
def loByte (n : Nat) : Byte := BitVec.ofNat 8 n

/-- A flag as the bit of weight `w`. -/
def flagBit (b : Bool) (w : Nat) : Nat := if b then w else 0

/-- A signed two-byte field as its two's-complement figure (R190). -/
def signed16 (n : Nat) : Int := if n < 32768 then (n : Int) else (n : Int) - 65536

/-- The two's-complement figure of a signed field (R190). -/
def unsigned16 (i : Int) : Nat := if i < 0 then (i + 65536).toNat else i.toNat

/-- A counter of one byte that saturates (00_scope.md §5). -/
def sat255 (n : Nat) : Nat := min 255 (n + 1)

/-! ### Codes (R191, R192, R193) -/

/-- The session state codes of a STATUS summary and of a pad reply (R191, R192). -/
def PadState.code : PadState → Nat
  | .vacant => 0
  | .arrived => 1
  | .waiting => 2
  | .charging => 3
  | .complete => 4
  | .held => 5
  | .offline => 6

/-- The reason codes of a pad reply (R192). -/
def Reason.code : Reason → Nat
  | .ok => 0
  | .noPresence => 1
  | .offline => 2
  | .fault => 3
  | .badRequest => 4

/-- The response codes of a STATUS summary (R191). -/
def responseCode : Option Response → Nat
  | none => 0
  | some .latch => 1
  | some .retryLong => 2
  | some .retryShort => 3
  | some .holdWhile => 4
  | some .report => 5
  | some .ignore => 0

/-- The response codes of the image (R193); `none` is an undefined code. -/
def imageResponse (b : Byte) : Option Response :=
  match b.toNat with
  | 0 => some .latch
  | 1 => some .retryLong
  | 2 => some .retryShort
  | 3 => some .holdWhile
  | 4 => some .report
  | 5 => some .ignore
  | _ => none

/-- The align mode codes (R191, R193). -/
def alignCode : AlignMode → Nat
  | .continuous => 0
  | .once => 1
  | .monitor => 2

/-- The align mode of a code; `none` is an undefined code. -/
def alignOf : Nat → Option AlignMode
  | 0 => some .continuous
  | 1 => some .once
  | 2 => some .monitor
  | _ => none

/-- The mode codes of a CLAIM (R191). -/
def NodeMode.code : NodeMode → Nat
  | .solo => 1
  | .coordinated => 2

/-- The mode of a code; `none` is an undefined code. -/
def modeOf : Nat → Option NodeMode
  | 1 => some .solo
  | 2 => some .coordinated
  | _ => none

/-- The cause codes of a STATUS (R191). -/
def Cause.code : Cause → Nat
  | .none => 0
  | .cond .lineInStep => 1
  | .cond .solo => 2
  | .cond .ceilingReduced => 3
  | .cond .padHeldAny => 4
  | .cond .phaseOut => 5
  | .changedWhileLatched => 6

/-- The kind bytes of the notices (R191). -/
def kindClaim : Byte := 0x11
def kindAnnounce : Byte := 0x12
def kindStatus : Byte := 0x13
def kindCurtail : Byte := 0x14
def kindDirective : Byte := 0x21

/-- The feeder id that means any feeder (R48, R191). -/
def anyFeeder : Byte := 0xFF

/-! ### Bodies of the notices the part sends (R191) -/

/-- One demand entry of a CLAIM body: 10 bytes. -/
def ClaimEntry.bytes (e : ClaimEntry) : List Byte :=
  [loByte (e.pad.val + 4 * e.cls + flagBit e.overdue 16 + flagBit e.taper 32 + flagBit e.deferred 64),
   loByte e.urgency, hiByte e.floor, loByte e.floor, hiByte e.ask, loByte e.ask, hiByte e.intent, loByte e.intent,
   hiByte e.measured, loByte e.measured]

/-- The demand entries of a CLAIM body, in order. -/
def claimEntriesBytes : List ClaimEntry → List Byte
  | [] => []
  | e :: es => e.bytes ++ claimEntriesBytes es

/-- A CLAIM body. -/
def Claim.bytes (c : Claim) : List Byte :=
  [loByte (c.mode.code + flagBit c.short 4), hiByte c.phase, loByte c.phase, hiByte c.draw, loByte c.draw,
   loByte c.entries.length] ++ claimEntriesBytes c.entries

/-- An ANNOUNCE body. -/
def Announce.bytes (a : Announce) : List Byte :=
  [hiByte a.lCfg, loByte a.lCfg, hiByte a.guard, loByte a.guard, loByte a.nCfg, loByte a.pc,
   loByte (alignCode a.align + flagBit a.clamped 128), loByte a.inService]

/-- A CURTAIL body. -/
def Curtail.bytes (c : Curtail) : List Byte := [if c.assert then 1 else 2, loByte c.percent]

/-- A per-pad summary of a STATUS body; six zero bytes for a pad that no enabled port carries. -/
def summaryBytes : Option Summary → List Byte
  | none => [0, 0, 0, 0, 0, 0]
  | some p => [loByte (p.state.code + 16 * responseCode p.response + 128), p.entries, p.present, p.reported,
      loByte p.retries, loByte p.errors]

/-- A STATUS body. -/
def Status.bytes (m : Status) : List Byte :=
  [loByte (flagBit m.health.lineInStep 1 + flagBit m.health.solo 2 + flagBit m.health.ceilingReduced 4
      + flagBit m.health.padHeldAny 8 + flagBit m.health.phaseOut 16 + flagBit m.periodic 32 + flagBit m.duplicate 64),
   loByte m.cause.code,
   loByte (flagBit m.conflict 1 + flagBit m.short 2 + flagBit m.mean.isSome 4),
   hiByte m.headroom, loByte m.headroom,
   hiByte (unsigned16 (m.mean.getD 0)), loByte (unsigned16 (m.mean.getD 0))]
  ++ summaryBytes m.pads[0] ++ summaryBytes m.pads[1] ++ summaryBytes m.pads[2] ++ summaryBytes m.pads[3]
  ++ [loByte m.counters.bad, loByte m.counters.aborted, loByte m.counters.foreign, loByte m.counters.overruns,
      loByte m.counters.badKind, loByte m.counters.claimsDropped, loByte m.counters.noticesDropped]

/-- A DIRECTIVE body, as an observer sends it. -/
def Directive.bytes (d : Directive) : List Byte :=
  [loByte d.target,
   (match d.action with
    | .clear => 1
    | .padOffline => 2
    | .padOnline => 3),
   loByte (flagBit d.pads[0] 1 + flagBit d.pads[1] 2 + flagBit d.pads[2] 4 + flagBit d.pads[3] 8 + flagBit d.node 16)]

/-- The frame of a notice from the own node. -/
def ownFrame (nodeId : NodeId) (feederId : Nat) (kind : Byte) (body : List Byte) : Frame :=
  ⟨kind, loByte nodeId.val, loByte feederId, body⟩

/-- The frame of a ROUTINE notice. -/
def Routine.frame (nodeId : NodeId) (feederId : Nat) : Routine → Frame
  | .claim c => ownFrame nodeId feederId kindClaim c.bytes
  | .status m => ownFrame nodeId feederId kindStatus m.bytes
  | .announce a => ownFrame nodeId feederId kindAnnounce a.bytes

/-! ### The checks at a drain (R69) -/

/-- One demand entry of a CLAIM body, `none` when a field is outside its range (R59, R69). -/
def parseEntry (b0 u f1 f0 k1 k0 i1 i0 m1 m0 : Byte) : Option ClaimEntry :=
  if be16 f1 f0 ≤ be16 k1 k0 ∧ be16 m1 m0 ≤ Config.maxMeasured then
    some ⟨Fin.ofNat 4 b0.toNat, b0.toNat / 4 % 4, u.toNat, b0.getLsbD 4, b0.getLsbD 5, b0.getLsbD 6,
      be16 f1 f0, be16 k1 k0, be16 i1 i0, be16 m1 m0⟩
  else none

/-- The demand entries of a CLAIM body: `none` when the length is not a whole number of entries or an entry fails. -/
def parseEntries : List Byte → Option (List ClaimEntry)
  | [] => some []
  | b0 :: u :: f1 :: f0 :: k1 :: k0 :: i1 :: i0 :: m1 :: m0 :: rest =>
    match parseEntry b0 u f1 f0 k1 k0 i1 i0 m1 m0, parseEntries rest with
    | some e, some es => some (e :: es)
    | _, _ => none
  | _ => none

/-- No logical pad stands twice in the list (R69). -/
def padsDistinct : List ClaimEntry → Bool
  | [] => true
  | e :: es => es.all (fun x => x.pad != e.pad) && padsDistinct es

/-- A CLAIM body (R59, R69, R191). -/
def parseClaim : List Byte → Option Claim
  | b0 :: p1 :: p0 :: d1 :: d0 :: n :: rest =>
    match modeOf (b0.toNat % 4), parseEntries rest with
    | some mode, some es =>
      if n.toNat ≤ 4 ∧ es.length = n.toNat ∧ be16 p1 p0 ≤ 749 ∧ be16 d1 d0 ≤ 16000 ∧ padsDistinct es = true then
        some ⟨mode, b0.getLsbD 2, be16 p1 p0, be16 d1 d0, es⟩
      else none
    | _, _ => none
  | _ => none

/-- An ANNOUNCE body (R60, R69, R191). -/
def parseAnnounce : List Byte → Option Announce
  | [l1, l0, g1, g0, n, pc, a, p] =>
    match alignOf (a.toNat % 4) with
    | some align =>
      if 100 ≤ be16 l1 l0 ∧ be16 l1 l0 ≤ 65000 ∧ be16 g1 g0 ≤ be16 l1 l0 / 4 ∧ 1 ≤ n.toNat ∧ n.toNat ≤ 16
          ∧ 10 ≤ pc.toNat ∧ pc.toNat ≤ 100 ∧ p.toNat ≤ 4 then
        some ⟨be16 l1 l0, be16 g1 g0, n.toNat, pc.toNat, align, a.getLsbD 7, p.toNat⟩
      else none
    | none => none
  | _ => none

/-- A per-pad summary whose codes and retry count are in range (R61, R191). -/
def summaryInRange (b0 retries : Byte) : Bool :=
  b0.toNat % 8 ≤ 6 && b0.toNat / 16 % 8 ≤ 5 && retries.toNat ≤ 3

/-- A STATUS body (R61, R69, R191): its duplicate flag, the one field a receiving node uses. A mean that is not 0 while its
valid bit is clear, and fields in the summary of a pad that is not carried, are accepted when each lies in its own range: R69
does not name them. DESIGN CHOICE (log 16). -/
def parseStatus (body : List Byte) : Option Bool :=
  let at_ (i : Nat) : Byte := body.getD i 0
  let mean := signed16 (be16 (at_ 5) (at_ 6))
  if body.length = 38 ∧ (at_ 1).toNat ≤ 6 ∧ -250 ≤ mean ∧ mean ≤ 249
      ∧ summaryInRange (at_ 7) (at_ 11) = true ∧ summaryInRange (at_ 13) (at_ 17) = true
      ∧ summaryInRange (at_ 19) (at_ 23) = true ∧ summaryInRange (at_ 25) (at_ 29) = true then
    some ((at_ 0).getLsbD 6)
  else none

/-- A CURTAIL body (R62, R69, R191). -/
def parseCurtail : List Byte → Option Curtail
  | [a, p] =>
    if (a = 1 ∨ a = 2) ∧ 10 ≤ p.toNat ∧ p.toNat ≤ 100 then some ⟨a == 1, p.toNat⟩ else none
  | _ => none

/-- The action of a DIRECTIVE's code; `none` is an undefined action. -/
def actionOf : Nat → Option Action
  | 1 => some .clear
  | 2 => some .padOffline
  | 3 => some .padOnline
  | _ => none

/-- A DIRECTIVE body (R63, R69, R191). -/
def parseDirective : List Byte → Option Directive
  | [t, a, m] =>
    match actionOf a.toNat with
    | some act =>
      if t.toNat ≤ 15 ∨ t.toNat = 31 then
        some ⟨t.toNat, act, Vector.ofFn (fun i : Fin 4 => m.getLsbD i.val), m.getLsbD 4⟩
      else none
    | none => none
  | _ => none

/-- The sender of a node kind, `none` outside 0-15 (R58, R69). -/
def nodeSender (f : Frame) : Option NodeId :=
  if h : f.sender.toNat < 16 then some ⟨f.sender.toNat, h⟩ else none

/-- The checks of R69: the notice a queued frame carries, or `none` when it is rejected. A field outside its stated
range, or a code its table does not list, rejects the notice (log 16). -/
def checkNotice (f : Frame) : Option Notice :=
  if f.kind = kindDirective then
    if 16 ≤ f.sender.toNat ∧ f.sender.toNat ≤ 31 then (parseDirective f.body).map .directive else none
  else if f.feeder = anyFeeder then none
  else
    match nodeSender f with
    | none => none
    | some j =>
      if f.kind = kindClaim then (parseClaim f.body).map (.claim j)
      else if f.kind = kindAnnounce then (parseAnnounce f.body).map (.announce j)
      else if f.kind = kindStatus then (parseStatus f.body).map (.status j)
      else if f.kind = kindCurtail then (parseCurtail f.body).map (.curtail j)
      else none

/-! ### Vehicle records, pad replies and stage messages (R9, R192) -/

/-- A DOCK that R9 refuses with BAD_REQUEST. -/
def dockRefused (r : DockRecord) : Bool := 3 < r.cls.toNat || r.maxPower.toNat == 0

/-- The clamped values of a DOCK (R9). -/
structure DockRequest where
  vehicle : BitVec 32
  cls : Nat
  energy : Nat
  pMax : Nat
  pMin : Option Nat
  timeLeft : Option Nat
  deriving DecidableEq, Repr

/-- The clamps of R9 under the port's stage rating. -/
def dockClamp (r : DockRecord) (rating : Nat) : DockRequest :=
  let pMax := min r.maxPower.toNat rating
  { vehicle := r.vehicle
    cls := r.cls.toNat
    energy := min r.energy.toNat Config.maxEnergy
    pMax := pMax
    pMin := r.minPower.map (fun p => min p.toNat pMax)
    timeLeft := r.deadline.map BitVec.toNat }

/-- An UPDATE that R13 refuses with BAD_REQUEST: it carries a maximum power of 0. -/
def updateRefused (r : UpdateRecord) : Bool := r.maxPower == some 0

/-- A pad reply on the link: start byte, length, kind, body; the CRC-8 follows (R192). -/
def Reply.bytes (r : Reply) : List Byte :=
  [0xC3, 8, 0x81, loByte r.pad, loByte r.state.code, hiByte r.setpoint, loByte r.setpoint, hiByte r.energy,
   loByte r.energy, loByte r.reason.code]

/-! ### The configuration image (R186, R187, R193) -/

/-- Byte `i` of the image. -/
def imageByte (image : List Byte) (i : Nat) : Byte := image.getD i 0

/-- The two-byte field at byte `i` of the image. -/
def imageWord (image : List Byte) (i : Nat) : Nat := be16 (imageByte image i) (imageByte image (i + 1))

/-- The port map entry of physical port `p`: `none` when the byte is neither a logical pad nor the disabled code. -/
def imagePort (image : List Byte) (p : PortId) : Option (Option PadId) :=
  let b := (imageByte image (17 + p.val)).toNat
  if h : b < 4 then some (some ⟨b, h⟩) else if b = 255 then some none else none

/-- The port map check of R186: every entry is valid, no logical pad is carried twice, some port is enabled. -/
def portMapGood (image : List Byte) : Bool :=
  let entries := (List.finRange 4).map (imagePort image)
  let pads : List PadId := entries.filterMap fun e => e.join
  entries.all Option.isSome && decide pads.Nodup && !pads.isEmpty

/-- A value clamped to the nearest end of a range. -/
def clampTo (lo hi n : Nat) : Nat := max lo (min hi n)

/-- The allowed responses of each condition (R169). -/
def allowedResponse : Cond → Response → Bool
  | .overDraw, r => r == .latch || r == .retryLong || r == .retryShort || r == .report
  | .noDraw, r => r == .latch || r == .retryLong || r == .retryShort || r == .report || r == .ignore
  | .contactLoss, r => r == .latch || r == .retryShort || r == .report
  | .taper, r => r == .report || r == .ignore
  | .stageFault, r => r == .latch || r == .holdWhile
  | .busLow, r => r == .latch || r == .holdWhile || r == .report
  | .busHigh, r => r == .latch || r == .holdWhile || r == .report

/-- The response of a condition: its code when that names an allowed response, its default otherwise (R187). -/
def clampResponse (c : Cond) (b : Byte) : Response :=
  match imageResponse b with
  | some r => if allowedResponse c r then r else ResponseTable.defaults.of c
  | none => ResponseTable.defaults.of c

/-- Whether the clamp of R187 changed the response. -/
def responseClamped (c : Cond) (b : Byte) : Bool :=
  match imageResponse b with
  | some r => !allowedResponse c r
  | none => true

/-- The configuration of an image that passed its checks: the fields of R193 under the clamps of R187, in the order
given there, with S derived by R188. -/
def clampImage (image : List Byte) : Configuration :=
  let lCfg := clampTo 100 65000 (imageWord image 4)
  let guard := min (imageWord image 6) (lCfg / 4)
  let dUp := clampTo 10 1000 (imageWord image 8)
  let pc := clampTo 10 100 (imageByte image 10).toNat
  let window := clampTo 1 20 (imageByte image 12).toNat
  let vHigh := clampTo 100 1000 (imageWord image 15)
  let vLow := if imageWord image 13 < vHigh - 40 then imageWord image 13 else vHigh - 41
  let portMap := Vector.ofFn fun p : Fin 4 => (imagePort image p).join
  let rating := Vector.ofFn fun p : Fin 4 =>
    if (portMap[p]).isSome then clampTo 100 4000 (imageWord image (21 + 2 * p.val)) else 0
  let ratingClamped := (List.finRange 4).any fun p =>
    (portMap[p]).isSome && rating[p] != imageWord image (21 + 2 * p.val)
  let nCfg := (imageByte image 3).toNat
  { feederId := (imageByte image 2).toNat
    nCfg := nCfg
    lCfg := lCfg
    guard := guard
    dUp := dUp
    pc := pc
    window := window
    vLow := vLow
    vHigh := vHigh
    portMap := portMap
    rating := rating
    responses :=
      { overDraw := clampResponse .overDraw (imageByte image 29)
        noDraw := clampResponse .noDraw (imageByte image 30)
        contactLoss := clampResponse .contactLoss (imageByte image 31)
        taper := clampResponse .taper (imageByte image 32)
        stageFault := clampResponse .stageFault (imageByte image 33)
        busLow := clampResponse .busLow (imageByte image 34)
        busHigh := clampResponse .busHigh (imageByte image 35) }
    align := (alignOf (imageByte image 11).toNat).getD .monitor
    alertRoute := imageByte image 36 != 0
    clamped := lCfg != imageWord image 4 || guard != imageWord image 6 || dUp != imageWord image 8
      || pc != (imageByte image 10).toNat || window != (imageByte image 12).toNat || vHigh != imageWord image 15
      || vLow != imageWord image 13 || ratingClamped
      || responseClamped .overDraw (imageByte image 29) || responseClamped .noDraw (imageByte image 30)
      || responseClamped .contactLoss (imageByte image 31) || responseClamped .taper (imageByte image 32)
      || responseClamped .stageFault (imageByte image 33) || responseClamped .busLow (imageByte image 34)
      || responseClamped .busHigh (imageByte image 35)
      || (alignOf (imageByte image 11).toNat).isNone || decide (1 < (imageByte image 36).toNat)
    solo := (lCfg - guard) / nCfg }

end Sys2Proof.Machine
end

