-- ==== Sys2Proof/Machine/Flags.lean ====
section
/-! DEFINITION. Machine/Flags.lean: the figures and flags that other state determines: overdue and urgency (R30, R32),
ask and floor (R34, R35), entry states and reserve (R89, R100), L_low (R97), the mode (R151) and the pins (R178, R179). -/

namespace Sys2Proof.Machine

/-! ### Sessions (chapters 1 and 2) -/

/-- A session exists (R2). -/
def PadState.admitted : PadState → Bool
  | .waiting | .charging | .complete | .held => true
  | .vacant | .arrived | .offline => false

/-- The session is eligible (R2). -/
def PadState.eligible : PadState → Bool
  | .waiting | .charging => true
  | .vacant | .arrived | .complete | .held | .offline => false

/-- The overdue flag of an admitted session (R30). -/
def overdueOf (timeLeft : Option Nat) (energy : Nat) : Bool := timeLeft == some 0 && decide (0 < energy)

/-- The average power needed, rounded up (R32). -/
def requiredPower (energy t : Nat) : Nat := (energy * 3600 + t - 1) / t

/-- The urgency of an admitted session (R32). -/
def urgencyOf (timeLeft : Option Nat) (energy pMax : Nat) : Nat :=
  match timeLeft with
  | none => 0
  | some t =>
    if energy = 0 then 0
    else if t = 0 then 255
    else min 254 (requiredPower energy t * 200 / pMax)

/-- The overdue flag and U evaluated again from the session's figures (R30, R33). -/
def Session.judge (x : Session) : Session :=
  { x with overdue := overdueOf x.timeLeft x.energy, urgency := urgencyOf x.timeLeft x.energy x.pMax }

/-- The ask of an eligible session (R34). -/
def askOf (pMax : Nat) (cap : Option Nat) : Nat :=
  match cap with
  | some c => min c pMax
  | none => pMax

/-- The floor of an eligible session (R35). -/
def floorOf (pMin : Option Nat) (ask : Nat) : Nat := min (pMin.getD 0) ask

/-- U, ask and floor at a compute start (R33, R34, R35). A pad with no session keeps U 0 (R1). -/
def Session.atComputeStart (x : Session) : Session :=
  let ask := if x.state.eligible then askOf x.pMax x.cap else 0
  { x with
    urgency := if x.state.admitted then urgencyOf x.timeLeft x.energy x.pMax else x.urgency
    ask := ask
    floor := if x.state.eligible then floorOf x.pMin ask else 0 }

/-! ### In-force sets (chapter 11) -/

/-- The entry of a condition. -/
def InForce.get (f : InForce) : Cond → Option Entry
  | .overDraw => f.overDraw
  | .noDraw => f.noDraw
  | .contactLoss => f.contactLoss
  | .taper => f.taper
  | .stageFault => f.stageFault
  | .busLow => f.busLow
  | .busHigh => f.busHigh

/-- The set with the entry of one condition replaced. -/
def InForce.put (f : InForce) (c : Cond) (e : Option Entry) : InForce :=
  match c with
  | .overDraw => { f with overDraw := e }
  | .noDraw => { f with noDraw := e }
  | .contactLoss => { f with contactLoss := e }
  | .taper => { f with taper := e }
  | .stageFault => { f with stageFault := e }
  | .busLow => { f with busLow := e }
  | .busHigh => { f with busHigh := e }

/-- The seven conditions in the order of their bits (R191). -/
def allConds : List Cond := [.overDraw, .noDraw, .contactLoss, .taper, .stageFault, .busLow, .busHigh]

/-- Some entry of the set has the property. -/
def InForce.any (f : InForce) (p : Entry → Bool) : Bool := allConds.any fun c => (f.get c).any p

/-- The set without the entries of the named conditions that have the property. -/
def InForce.drop (f : InForce) (p : Cond → Entry → Bool) : InForce :=
  let keep (c : Cond) (e : Option Entry) : Option Entry := e.filter fun x => !p c x
  ⟨keep .overDraw f.overDraw, keep .noDraw f.noDraw, keep .contactLoss f.contactLoss, keep .taper f.taper,
   keep .stageFault f.stageFault, keep .busLow f.busLow, keep .busHigh f.busHigh⟩

/-- The holding responses (R169). -/
def holding : Response → Bool
  | .latch | .retryLong | .retryShort | .holdWhile => true
  | .report | .ignore => false

/-- The retry responses (R169). -/
def retrying : Response → Bool
  | .retryLong | .retryShort => true
  | .latch | .holdWhile | .report | .ignore => false

/-- The vehicle-origin conditions (R169). -/
def vehicleOrigin : Cond → Bool
  | .overDraw | .noDraw | .contactLoss | .taper => true
  | .stageFault | .busLow | .busHigh => false

/-- A pad is held while its set holds an entry with a holding response (R173). -/
def PadFault.held (f : PadFault) : Bool := f.inForce.any fun e => holding e.response

/-- The set holds a stage-origin entry with the response LATCH (R10). -/
def InForce.stageLatched (f : InForce) : Bool :=
  [Cond.stageFault, Cond.busLow, Cond.busHigh].any fun c => (f.get c).any fun e => e.response == .latch

/-- The response in force: the highest-priority response among the entries (R169). -/
def InForce.response (f : InForce) : Option Response :=
  [Response.latch, .retryLong, .retryShort, .holdWhile, .report].find? fun r => f.any fun e => e.response == r

/-- Some condition of the set is reported-active (R170). -/
def InForce.reportedActive (f : InForce) : Bool := f.any fun e => e.response == .report

/-- The mask of the conditions whose entry has the property (R191). -/
def InForce.mask (f : InForce) (p : Entry → Bool) : Byte :=
  loByte ((allConds.zipIdx.map fun (c, i) => flagBit ((f.get c).any p) (2 ^ i)).sum)

/-! ### Ports -/

/-- The port map enables the port (R3, R193). -/
def portEnabled (cfg : Configuration) (p : PortId) : Bool := cfg.portMap[p].isSome

/-- The enabled port that carries a logical pad (R1). -/
def carrierOf (cfg : Configuration) (pad : PadId) : Option PortId :=
  (List.finRange 4).find? fun p => cfg.portMap[p] == some pad

/-- The port map enables the port in the running part. -/
def State.enabled (s : State) (p : PortId) : Bool := portEnabled s.cfg p

/-- At least one enabled pad is held (R180). -/
def State.anyHeld (s : State) : Bool :=
  (List.finRange 4).any fun p => s.enabled p && s.ports[p].fault.held

/-! ### Peer Table (chapter 6) -/

/-- The state of the entry keyed `id` (R88, R89). -/
def PeerEntry.state (e : PeerEntry) (cfg : Configuration) (own id : NodeId) : PeerState :=
  if id = own then .self
  else if e.heard = false then .unheard
  else if 4 ≤ e.age then .lost
  else if cfg.nCfg ≤ id.val then .incompatible
  else if e.dupMark then .duplicate
  else if e.fingerprint.any (fun f => f.lCfg != cfg.lCfg || f.guard != cfg.guard || f.nCfg != cfg.nCfg) then
    .incompatible
  else if 2 ≤ e.age then .stale
  else if e.claim.any (fun c => c.mode == .solo) then .solo
  else .live

/-- The state of entry `id` of the table. -/
def State.peerState (s : State) (id : NodeId) : PeerState := s.peers[id].state s.cfg s.nodeId id

/-- An entry's contribution to the reserve (R100). -/
def contribution (cfg : Configuration) (id : NodeId) (state : PeerState) (draw : Nat) : Nat :=
  match state with
  | .self | .live | .stale => 0
  | .unheard | .lost => if id.val < cfg.nCfg then cfg.solo else 0
  | .solo => cfg.solo
  | .incompatible => max cfg.solo draw
  | .duplicate => 2 * cfg.solo

/-- The contribution of entry `id` of the table. -/
def State.contribution (s : State) (id : NodeId) : Nat :=
  Sys2Proof.Machine.contribution s.cfg id (s.peerState id) s.peers[id].draw

/-- The reserve Rv (R100). -/
def State.reserve (s : State) : Nat := ((List.finRange 16).map s.contribution).sum

/-- L_low: the lowest L_cfg among the own value and the stored fingerprints (R97). -/
def State.lLow (s : State) : Nat :=
  (List.finRange 16).foldl (fun low id => (s.peers[id].fingerprint.map Fingerprint.lCfg).elim low (min low)) s.cfg.lCfg

/-- Some entry is INCOMPATIBLE (R96). -/
def State.anyIncompatible (s : State) : Bool := (List.finRange 16).any fun id => s.peerState id == .incompatible

/-! ### Curtailment and mode (chapter 9) -/

/-- The lowest percent in force: the own P_c under local curtail and the percents of the Curtail Set (R147). -/
def State.curtailPercent (s : State) : Option Nat :=
  (List.finRange 16).foldl
    (fun low id =>
      match s.curtail.set[id], low with
      | some e, some p => some (min p e.percent)
      | some e, none => some e.percent
      | none, p => p)
    (if s.curtail.localForce then some s.cfg.pc else none)

/-- The target that the curtailment in force calls for (R147). -/
def State.curtailTarget (s : State) : Nat :=
  match s.curtailPercent with
  | some p => s.cfg.lCfg * p / 100
  | none => s.cfg.lCfg

/-- The Curtail Set holds an entry. -/
def CurtailMonitor.anyEntry (c : CurtailMonitor) : Bool := (List.finRange 16).any fun id => c.set[id].isSome

/-- CEILING_REDUCED as R150 judges it. -/
def State.ceilingReduced (s : State) : Bool := s.curtail.ceiling < s.cfg.lCfg || s.lLow < s.cfg.lCfg

/-- The node mode as R151 judges it. -/
def State.modeNow (s : State) : NodeMode :=
  if s.boot = .running ∧ s.line.acq = .inStep ∧ s.line.span = some 2 ∧ s.duplicateId = false then .coordinated
  else .solo

/-! ### Pins (chapter 11) -/

/-- A condition is reported-active: a REPORT entry on an enabled pad, or CONFIG_CONFLICT present (R178). -/
def State.reportedActive (s : State) : Bool :=
  s.sup.conflict || (List.finRange 4).any fun p => s.enabled p && s.ports[p].fault.inForce.reportedActive

/-- FAULT by R178 while the part runs, asserted otherwise (R184, R189). -/
def State.faultRule (s : State) : Bool :=
  match s.boot with
  | .running =>
    s.duplicateId
      || ((List.finRange 4).any fun p =>
            s.enabled p && s.ports[p].fault.inForce.any fun e => e.response == .latch || retrying e.response)
      || (!s.cfg.alertRoute && s.reportedActive)
  | .held | .due _ _ | .reading _ _ | .waiting _ _ | .configFail => true

/-- ALERT by R179 while the part runs, released otherwise (R184, R189). -/
def State.alertRule (s : State) : Bool :=
  match s.boot with
  | .running => s.sup.latched || (s.cfg.alertRoute && s.reportedActive)
  | .held | .due _ _ | .reading _ _ | .waiting _ _ | .configFail => false

/-! ### Health conditions (R180) -/

/-- The value of one condition. -/
def Health.get (h : Health) : HealthCond → Bool
  | .lineInStep => h.lineInStep
  | .solo => h.solo
  | .ceilingReduced => h.ceilingReduced
  | .padHeldAny => h.padHeldAny
  | .phaseOut => h.phaseOut

/-- The values with one condition replaced. -/
def Health.put (h : Health) (c : HealthCond) (v : Bool) : Health :=
  match c with
  | .lineInStep => { h with lineInStep := v }
  | .solo => { h with solo := v }
  | .ceilingReduced => { h with ceilingReduced := v }
  | .padHeldAny => { h with padHeldAny := v }
  | .phaseOut => { h with phaseOut := v }

end Sys2Proof.Machine
end

