-- ==== Sys2Proof/Machine/Ops.lean ====
section
/-! DEFINITION. Machine/Ops.lean: the named operations that several commands share: writing a port, in-force sets with
the hold and release they cause, session ends, the health reports and the snapshot, placing notices, mode and HUNT entry. -/

namespace Sys2Proof.Machine

/-! ### Ports -/

/-- The state with one port rewritten. -/
def State.updPort (s : State) (p : PortId) (f : Port → Port) : State :=
  { s with ports := s.ports.set p (f s.ports[p]) }

/-- The state with every enabled port rewritten. -/
def State.updEnabled (s : State) (f : PortId → Port → Port) : State :=
  { s with ports := Vector.ofFn fun p : Fin 4 => if s.enabled p then f p s.ports[p] else s.ports[p] }

/-- The part has completed start-up and is not in CONFIG_FAIL, and the port is enabled: the port's units run (R3, R167). -/
def State.serves (s : State) (p : PortId) : Bool := s.boot == .running && s.enabled p

/-- The pad stops being eligible: command and intent become 0 (R137), the setpoint becomes 0 and the enable drops
(R157, R158). -/
def Port.stopEligible (x : Port) : Port :=
  { x with alloc := { x.alloc with command := 0, intent := 0 }
           stage := { x.stage with setpoint := 0, enable := false } }

/-- The compute in flight, if any, gives the pad no result (R137). -/
def State.markStopped (s : State) (p : PortId) : State :=
  { s with engine := { s.engine with
      inFlight := s.engine.inFlight.map fun c => { c with stopped := c.stopped.set p true } } }

/-! ### In-force sets (R170 to R175) -/

/-- An entry for the condition, marked present: the one the set has, or a new one with response `r` (R170). -/
def PadFault.enter (f : PadFault) (c : Cond) (r : Response) : PadFault :=
  match f.inForce.get c with
  | some e => { f with inForce := f.inForce.put c (some { e with present := true }) }
  | none => { f with inForce := f.inForce.put c (some ⟨r, true⟩) }

/-- The retry timer as a retry entry that takes force or is raised again sets it (R171). -/
def PadFault.setTimer (f : PadFault) (t : Nat) : PadFault :=
  match f.timer with
  | none => { f with timer := some t }
  | some left => if left < t then { f with timer := some t } else f

/-- The presence mark of the condition's entry, if one exists, is set (R170). -/
def PadFault.markPresent (f : PadFault) (c : Cond) : PadFault :=
  { f with inForce := f.inForce.put c ((f.inForce.get c).map fun e => { e with present := true }) }

/-- A raise of the condition under the configured response `r` (R170). -/
def PadFault.raise (f : PadFault) (c : Cond) (r : Response) : PadFault :=
  match r with
  | .ignore => f.markPresent c
  | .report | .holdWhile => f.enter c r
  | .latch => { f.enter c .latch with timer := none }
  | .retryLong | .retryShort =>
    if 3 ≤ f.retries then
      { f with inForce := f.inForce.put c (some ⟨.latch, true⟩), timer := none }
    else
      let g := f.enter c r
      if g.inForce.any (fun e => e.response == .latch) then g else g.setTimer (Config.retryTime r)

/-- A clear of the condition (R172). -/
def PadFault.clear (f : PadFault) (c : Cond) : PadFault :=
  match f.inForce.get c with
  | none => f
  | some e =>
    if e.response = .report ∨ e.response = .holdWhile then { f with inForce := f.inForce.put c none }
    else { f with inForce := f.inForce.put c (some { e with present := false }) }

/-- The retry timer's expiry (R171). -/
def PadFault.expire (f : PadFault) : PadFault :=
  { inForce := f.inForce.drop fun _ e => retrying e.response
    timer := none
    retries := min 3 (f.retries + 1) }

/-- Removed by a CLEAR: a LATCH or retry entry (R174). -/
def clearable (e : Entry) : Bool := e.response == .latch || retrying e.response

/-- A CLEAR naming the pad (R174): the LATCH and retry entries go, the timer stops and the count becomes 0, and each
condition removed while present is raised again under its configured response. -/
def PadFault.clearDirective (f : PadFault) (table : ResponseTable) : PadFault :=
  let again := allConds.filter fun c => (f.inForce.get c).any fun e => clearable e && e.present
  let bare : PadFault := ⟨f.inForce.drop fun _ e => clearable e, none, 0⟩
  again.foldl (fun g c => g.raise c (table.of c)) bare

/-- A session end other than by PAD_OFFLINE (R175). -/
def PadFault.endVehicle (f : PadFault) : PadFault :=
  { inForce := f.inForce.drop fun c _ => vehicleOrigin c, timer := none, retries := 0 }

/-- Every monitor count of the port at 0, and the vehicle-origin conditions not present (R160). -/
def Stage.restart (g : Stage) : Stage :=
  { g with odCount := 0, odPresent := false, ndSteady := 0, ndLow := 0, ndPresent := false, tpCount := 0,
           tpPresent := false, sfFlag := 0, sfSilence := 0, sfNormal := 0 }

/-- The monitors restart, and the vehicle-origin conditions that were present are reported cleared (R160). -/
def Port.restart (x : Port) : Port :=
  let f0 := if x.stage.odPresent then x.fault.clear .overDraw else x.fault
  let f1 := if x.stage.ndPresent then f0.clear .noDraw else f0
  let f2 := if x.stage.tpPresent then f1.clear .taper else f1
  { x with stage := x.stage.restart, fault := f2 }

/-- A hold reaching the pad (R18, R173): a session becomes HELD, the pad stops being eligible, the monitors restart. -/
def Port.hold (x : Port) : Port :=
  Port.restart (Port.stopEligible
    { x with session := { x.session with state := if x.session.state.admitted then .held else x.session.state } })

/-- A release reaching the pad (R18, R173). -/
def Port.release (x : Port) : Port :=
  if x.session.state = .held then
    { x with session := { x.session with state := if x.session.energy = 0 then .complete else .waiting } }
  else x

/-! ### Health reports (R180) -/

/-- An owner reports the value of a health condition; a change is noted in order. -/
def State.reportHealth (s : State) (c : HealthCond) (v : Bool) : State :=
  if s.sup.current.get c = v then s
  else { s with sup := { s.sup with current := s.sup.current.put c v, reports := s.sup.reports ++ [(c, v)] } }

/-- What the change of a pad's in-force set brings about (R173): a hold when the set gains its first holding entry, a
release when it loses its last, and PAD_HELD_ANY judged again (R180). `before` is whether the pad was held. -/
def State.signal (s : State) (p : PortId) (before : Bool) : State :=
  let after := s.ports[p].fault.held
  let s1 :=
    if before = false ∧ after = true then (s.updPort p Port.hold).markStopped p
    else if before = true ∧ after = false then s.updPort p Port.release
    else s
  s1.reportHealth .padHeldAny s1.anyHeld

/-- The state with the Fault Supervisor's record of one pad rewritten, and the hold or release it causes. -/
def State.updFault (s : State) (p : PortId) (g : PadFault → PadFault) : State :=
  (s.updPort p fun x => { x with fault := g x.fault }).signal p s.ports[p].fault.held

/-- The raises of one event, applied under the configured responses (R170). -/
def PadFault.raiseAll (f : PadFault) (table : ResponseTable) (cs : List Cond) : PadFault :=
  cs.foldl (fun g c => g.raise c (table.of c)) f

/-- The clears of one event (R172). -/
def PadFault.clearAll (f : PadFault) (cs : List Cond) : PadFault := cs.foldl PadFault.clear f

/-- The raises and clears that one tick's monitors report. When both kinds stand in one tick, R165 gives no order: a
free value says whether the clears reach the Fault Supervisor first (log 9). -/
def State.deliver (s : State) (p : PortId) (raises clears : List Cond) : State :=
  let raised (t : State) : State := t.updFault p fun f => f.raiseAll s.cfg.responses raises
  let cleared (t : State) : State := t.updFault p fun f => f.clearAll clears
  if raises = [] then (if clears = [] then s else cleared s)
  else if clears = [] then raised s
  else
    let s1 := { s with choice := s.choice + 1 }
    if Config.clearsFirst s.choice then raised (cleared s1) else cleared (raised s1)

/-! ### Session end (R16) -/

/-- The port's own part of a session end (R16, R175): `dest` is the state after it, `normal` is false for PAD_OFFLINE. -/
def Port.endSession (x : Port) (dest : PadState) (normal : Bool) : Port :=
  let f := if x.session.contactLoss then x.fault.clear .contactLoss else x.fault
  let y := Port.restart (Port.stopEligible
    { x with session := Session.empty dest x.session.errors, fault := f })
  if normal then { y with fault := y.fault.endVehicle } else y

/-- A session end with the signals to the other owners (R16). -/
def State.endSession (s : State) (p : PortId) (dest : PadState) (normal : Bool) : State :=
  ((s.updPort p fun x => x.endSession dest normal).markStopped p).signal p s.ports[p].fault.held

/-! ### Placing notices (R74 to R76, R182) -/

/-- A CURTAIL placed in the URGENT queue (R75). -/
def Transmitter.placeCurtail (t : Transmitter) (c : Curtail) : Transmitter :=
  match t.urgent with
  | [] => { t with urgent := [(c, 0)] }
  | head :: _ => { t with urgent := [head, (c, 0)] }

/-- A CLAIM placed in its slot (R76, R134). -/
def Transmitter.placeClaim (t : Transmitter) (c : Claim) : Transmitter := { t with claim := some (c, 0) }

/-- A STATUS placed in its slot (R76, R182). -/
def Transmitter.placeStatus (t : Transmitter) (m : Status) : Transmitter := { t with status := some (m, 0) }

/-- An ANNOUNCE placed in its slot (R56, R76). -/
def Transmitter.placeAnnounce (t : Transmitter) (a : Announce) : Transmitter := { t with announce := some (a, 0) }

/-- A CURTAIL notice with the own P_c (R62, R143, R144). -/
def State.placeCurtail (s : State) (assert : Bool) : State :=
  { s with tx := s.tx.placeCurtail ⟨assert, s.cfg.pc⟩ }

/-- The contents of an ANNOUNCE at its queueing (R60). -/
def State.announceMsg (s : State) : Announce where
  lCfg := s.cfg.lCfg
  guard := s.cfg.guard
  nCfg := s.cfg.nCfg
  pc := s.cfg.pc
  align := s.cfg.align
  clamped := s.cfg.clamped
  inService := (List.finRange 4).countP fun p => s.enabled p && s.ports[p].session.state != .offline

/-- An ANNOUNCE is put in its slot and the interval count set to 0 (R54, R56). -/
def State.queueAnnounce (s : State) : State :=
  { s with tx := s.tx.placeAnnounce s.announceMsg, line := { s.line with announce := 0 } }

/-- A port's summary in a STATUS (R61). -/
def Port.summary (x : Port) : Summary where
  state := x.session.state
  response := x.fault.inForce.response
  entries := x.fault.inForce.mask fun _ => true
  present := x.fault.inForce.mask fun e => e.present
  reported := x.fault.inForce.mask fun e => e.response == .report
  retries := x.fault.retries
  errors := x.session.errors

/-- The contents of a STATUS at its placement (R61, R182). -/
def State.statusMsg (s : State) (periodic : Bool) (health : Health) : Status where
  health := health
  periodic := periodic
  duplicate := s.duplicateId
  cause := s.sup.cause
  conflict := s.sup.conflict
  short := s.engine.short
  headroom := s.engine.headroom
  mean := s.round.mean
  pads := Vector.ofFn fun pad : Fin 4 => (carrierOf s.cfg pad).map fun p => s.ports[p].summary
  counters :=
    { bad := s.line.bad
      aborted := s.line.aborted
      foreign := s.line.foreign
      overruns := s.line.overruns
      badKind := s.badKind
      claimsDropped := s.tx.claimsDropped
      noticesDropped := s.tx.noticesDropped }

/-- A latch-STATUS with the recorded values and cause is placed and marked outstanding (R180, R181, R182). -/
def State.placeLatchStatus (s : State) : State :=
  { s with tx := s.tx.placeStatus (s.statusMsg false s.sup.recorded)
           sup := { s.sup with outstanding := true } }

/-- A periodic STATUS with the current values is placed (R182). -/
def State.placePeriodicStatus (s : State) : State :=
  { s with tx := s.tx.placeStatus (s.statusMsg true s.sup.current) }

/-! ### The Health Snapshot (R180) -/

/-- The first report of each condition, in order. -/
def firstReports : List (HealthCond × Bool) → List (HealthCond × Bool)
  | [] => []
  | r :: rest => r :: (firstReports rest).filter fun x => x.1 != r.1

/-- The snapshot latches the given values with the given cause (R180, R181). -/
def State.latch (s : State) (recorded : Health) (cause : Cause) : State :=
  State.placeLatchStatus
    { s with sup := { s.sup with latched := true, recorded := recorded, cause := cause } }

/-- The values as they stood when `first` of the event's first reports was taken and no other was (R180). -/
def valuesAt (current : Health) (reports : List (HealthCond × Bool)) (first : HealthCond × Bool) : Health :=
  (reports.foldl (fun h r => h.put r.1 (!r.2)) current).put first.1 first.2

/-- The health changes of the command reach the snapshot (R180): a latched one records none of them; a free one is
latched by the change taken first. R180 leaves which that is open when one event makes several: a free value (log 6). -/
def State.settleHealth (s : State) : State :=
  let s0 := { s with sup := { s.sup with reports := [] } }
  match firstReports s.sup.reports with
  | [] => s0
  | [r] => if s.sup.latched then s0 else s0.latch (valuesAt s.sup.current [r] r) (.cond r.1)
  | r :: r' :: rest =>
    if s.sup.latched then s0
    else
      let all := r :: r' :: rest
      let first := all.getD (Config.firstReport s.choice % all.length) r
      State.latch { s0 with choice := s.choice + 1 } (valuesAt s.sup.current all first) (.cond first.1)

/-- The FAULT and ALERT pins are judged again (R178, R179). -/
def State.judgePins (s : State) : State :=
  { s with sup := { s.sup with faultPin := s.faultRule, alertPin := s.alertRule } }

/-! ### Requests, mode, ceiling, conflict -/

/-- An out-of-round compute is requested by the command being executed (R117). -/
def State.request (s : State) : State := { s with engine := { s.engine with wanted := true } }

/-- The node mode is judged again (R151): a change is reported as SOLO, and a change to SOLO requests a compute (R152). -/
def State.judgeMode (s : State) : State :=
  if s.modeNow = s.curtail.mode then s
  else
    let s1 := { s with curtail := { s.curtail with mode := s.modeNow } }
    match s.modeNow with
    | .coordinated => s1.reportHealth .solo false
    | .solo => (s1.reportHealth .solo true).request

/-- CEILING_REDUCED is judged again and reported (R150). -/
def State.judgeCeiling (s : State) : State := s.reportHealth .ceilingReduced s.ceilingReduced

/-- The target is recomputed, and a ceiling above it falls to it at once (R147). -/
def State.retarget (s : State) : State :=
  { s with curtail := { s.curtail with target := s.curtailTarget, ceiling := min s.curtail.ceiling s.curtailTarget } }

/-- CONFIG_CONFLICT is judged again and reported (R96). -/
def State.judgeConflict (s : State) : State := { s with sup := { s.sup with conflict := s.anyIncompatible } }

/-! ### The Peer Table as a whole -/

/-- Every last phase error is made absent (R91, R103). -/
def State.dropPhaseErrors (s : State) : State :=
  { s with peers := Vector.ofFn fun id : Fin 16 => { s.peers[id] with phaseErr := none } }

/-- An entry at a new age; its claim is discarded when it is LOST (R92). -/
def PeerEntry.atAge (e : PeerEntry) (age : Nat) : PeerEntry :=
  { e with age := age, claim := if 4 ≤ age then none else e.claim }

/-- The ageing of the table (R91), with CONFIG_CONFLICT judged again (R96). -/
def State.agePeers (s : State) : State :=
  State.judgeConflict
    { s with peers := Vector.ofFn fun id : Fin 16 =>
        if s.peers[id].heard ∧ id ≠ s.nodeId then s.peers[id].atAge (min 15 (s.peers[id].age + 1)) else s.peers[id] }

/-- Every heard entry becomes LOST (R103), with CONFIG_CONFLICT judged again. -/
def State.losePeers (s : State) : State :=
  State.judgeConflict
    { s with peers := Vector.ofFn fun id : Fin 16 =>
        if s.peers[id].heard ∧ id ≠ s.nodeId then s.peers[id].atAge 4 else s.peers[id] }

/-- HUNT entry from TRIAL or IN_STEP (R53), with each block's part: the line, the Peer Table (at once, or at the
completion of the compute in flight, R103), the Curtail Set, LINE_IN_STEP and the node mode. -/
def State.huntEntry (s : State) : State :=
  let s1 := State.dropPhaseErrors
    { s with line := { s.line with
        acq := .hunt, trial := 0, errors := 0, silence := 0, heard := false, span := none, queue := []
        announce := if s.line.acq = .inStep then 0 else s.line.announce } }
  let s2 :=
    if s1.engine.inFlight.isSome then { s1 with engine := { s1.engine with huntPending := true } } else s1.losePeers
  let s3 := State.retarget { s2 with curtail := { s2.curtail with set := Vector.replicate 16 none } }
  (s3.judgeCeiling.reportHealth .lineInStep false).judgeMode

end Sys2Proof.Machine
end

