-- ==== Sys2Proof/Machine/Allocation.lean ====
section
/-! DEFINITION. Machine/Allocation.lean: the allocation compute (chapter 8): its snapshot, budgets, Rank List, passes and
overhang correction, its completion with the CLAIM, the raises and drops of commands, and how a command of the table
ends (requests served, health reports settled, pins judged). -/

namespace Sys2Proof.Machine

/-! ### The snapshot (R38, R120) -/

/-- The own demand of a port's session, if it offers one (R38). -/
def Port.demand (x : Port) (pad : PadId) : Option Demand :=
  if x.session.state.eligible ∧ 0 < x.session.ask then
    some
      { pad := pad
        cls := x.session.cls
        urgency := x.session.urgency
        overdue := x.session.overdue
        taper := x.session.cap.isSome
        floor := x.session.floor
        ask := x.session.ask }
  else none

/-- The own demands in ascending order of logical pad (R38, R133). -/
def State.ownDemands (s : State) : List Demand :=
  (List.finRange 4).filterMap fun pad => (carrierOf s.cfg pad).bind fun p => s.ports[p].demand pad

/-! ### Budgets (R122, R123) -/

/-- The feeder figure C: the lowest of L_cfg, L_low and the ceiling (R122). -/
def State.feederFigure (s : State) : Nat := min (min s.cfg.lCfg s.lLow) s.curtail.ceiling

/-- The solo budget B_solo (R123). -/
def State.soloBudget (s : State) : Nat :=
  if s.curtail.localForce || (s.curtail.anyEntry && s.line.acq == .inStep) then s.cfg.solo * s.cfg.pc / 100
  else s.cfg.solo

/-- The budget of a compute that starts now, and its budget short flag (R122, R123). -/
def State.budget (s : State) : Nat × Bool :=
  match s.curtail.mode with
  | .coordinated =>
    (s.feederFigure - (s.cfg.guard + s.reserve), decide (s.feederFigure < s.cfg.guard + s.reserve))
  | .solo => (s.soloBudget, false)

/-! ### The Rank List (R124) -/

/-- `a` stands before `b`: class and urgency highest first, then node id and logical pad lowest first (R124). -/
def Ranked.before (a b : Ranked) : Bool :=
  if a.cls ≠ b.cls then decide (b.cls < a.cls)
  else if a.urgency ≠ b.urgency then decide (b.urgency < a.urgency)
  else if a.node ≠ b.node then decide (a.node < b.node)
  else decide (a.pad < b.pad)

/-- Insertion in rank order. -/
def insertRanked (x : Ranked) : List Ranked → List Ranked
  | [] => [x]
  | y :: ys => if x.before y then x :: y :: ys else y :: insertRanked x ys

/-- A list in rank order. -/
def rankSort : List Ranked → List Ranked
  | [] => []
  | x :: xs => insertRanked x (rankSort xs)

/-- The Rank List entry of an own demand. -/
def Demand.ranked (d : Demand) (node : NodeId) : Ranked :=
  ⟨node, true, d.pad, d.cls, d.urgency, d.floor, d.ask, 0, 0, false⟩

/-- The Rank List entry of a peer's demand. -/
def PeerDemand.ranked (d : PeerDemand) (node : NodeId) : Ranked :=
  ⟨node, false, d.pad, d.cls, d.urgency, d.floor, d.ask, d.intent, 0, false⟩

/-- The demands of a peer entry that a coordinated compute ranks: those of a LIVE or STALE entry below N_cfg (R102). -/
def State.peerRanked (s : State) (id : NodeId) : List Ranked :=
  if id.val < s.cfg.nCfg ∧ (s.peerState id = .live ∨ s.peerState id = .stale) then
    match s.peers[id].claim with
    | some c => c.demands.map fun d => d.ranked id
    | none => []
  else []

/-- The Rank List of a compute that starts now with the own demands `ds` (R124). -/
def State.rankList (s : State) (ds : List Demand) : List Ranked :=
  let own := ds.map fun d => d.ranked s.nodeId
  match s.curtail.mode with
  | .coordinated => rankSort (own ++ (List.finRange 16).flatMap s.peerRanked)
  | .solo => rankSort own

/-! ### The passes (R125, R126) and the overhang correction (R127) -/

/-- The floor pass with remainder `r`: each entry gets its floor or is deferred (R125). -/
def floorPass : Nat → List Ranked → List Ranked × Nat
  | r, [] => ([], r)
  | r, e :: es =>
    if e.floor ≤ r then
      let (rest, r') := floorPass (r - e.floor) es
      ({ e with grant := e.floor, deferred := false } :: rest, r')
    else
      let (rest, r') := floorPass r es
      ({ e with grant := 0, deferred := true } :: rest, r')

/-- The fill pass with remainder `r` over the entries that the floor pass left (R126). -/
def fillPass : Nat → List Ranked → List Ranked × Nat
  | r, [] => ([], r)
  | r, e :: es =>
    if e.deferred then
      let (rest, r') := fillPass r es
      (e :: rest, r')
    else
      let extra := min (e.ask - e.floor) r
      let (rest, r') := fillPass (r - extra) es
      ({ e with grant := e.grant + extra } :: rest, r')

/-- The overhang H: what peers have announced above their grants (R127). -/
def overhang (es : List Ranked) : Nat := (es.map fun e => if e.own then 0 else e.intent - e.grant).sum

/-- The grant an own entry keeps when the overhang left is `h` (R127). A cut below the floor takes the whole grant. -/
def cutGrant (e : Ranked) (h : Nat) : Nat :=
  let trial := e.grant - min e.grant h
  if 0 < trial ∧ trial < e.floor then 0 else trial

/-- The walk of the correction over the entries from the lowest-ranked upward, with overhang `h` left; 0 stands for H
at or below 0 (R127). -/
def cutWalk : Nat → List Ranked → List Ranked
  | _, [] => []
  | h, e :: es =>
    if e.own ∧ 0 < h then { e with grant := cutGrant e h } :: cutWalk (h - (e.grant - cutGrant e h)) es
    else e :: cutWalk h es

/-- The Rank List with its final grants, and the headroom (R125 to R127). -/
def Compute.run (c : Compute) : List Ranked × Nat :=
  let (floored, r) := floorPass c.budget c.ranks
  let (filled, headroom) := fillPass r floored
  match c.mode with
  | .coordinated => ((cutWalk (overhang filled) filled.reverse).reverse, headroom)
  | .solo => (filled, headroom)

/-! ### Start (R117, R120) -/

/-- What a compute of the given kind takes at its start from the state as it stands (R120). -/
def State.snapshot (s : State) (kind : ComputeKind) : Compute where
  kind := kind
  mode := s.curtail.mode
  demands := s.ownDemands
  budget := s.budget.1
  short := s.budget.2
  ranks := s.rankList s.ownDemands
  eligible := Vector.ofFn fun p : Fin 4 => s.enabled p && s.ports[p].session.state.eligible
  stopped := Vector.replicate 4 false
  elapsed := 0

/-- A compute of the given kind starts: U, ask and floor are evaluated and the snapshot is taken (R33 to R35, R120). -/
def State.startCompute (s : State) (kind : ComputeKind) : State :=
  let s1 := s.updEnabled fun _ x => { x with session := x.session.atComputeStart }
  { s1 with engine := { s1.engine with inFlight := some (s1.snapshot kind) } }

/-- The request of the command being executed reaches the Allocation Engine: an out-of-round compute starts, or the
request is remembered (R117, R118). -/
def State.serve (s : State) : State :=
  if s.engine.wanted then
    let s1 := { s with engine := { s.engine with wanted := false } }
    match s1.engine.inFlight with
    | none => s1.startCompute .outOfRound
    | some _ => { s1 with engine := { s1.engine with request := true } }
  else s

/-- How a command ends: its request is served, its health changes reach the snapshot, the pins are judged. -/
def State.finish (s : State) : State := s.serve.settleHealth.judgePins

/-! ### Results (R128 to R131) -/

/-- What a completed compute writes for a pad with grant `g` (R129, R130, R131). -/
def PadAlloc.result (a : PadAlloc) (kind : ComputeKind) (mode : NodeMode) (dUp g : Nat) : PadAlloc :=
  match kind, mode with
  | .regular, .coordinated =>
    if g ≤ a.command then ⟨g, g, g, g⟩
    else { grant := g, intent := min g (a.command + dUp), command := a.command, settled := a.command }
  | .regular, .solo =>
    if g ≤ a.command then ⟨g, g, g, g⟩
    else
      let c := min g (min a.command a.settled + dUp)
      { grant := g, intent := c, command := c, settled := c }
  | .outOfRound, .coordinated =>
    { grant := g, intent := min a.intent g, command := min a.command g, settled := min a.command g }
  | .outOfRound, .solo =>
    { grant := g, intent := min a.command g, command := min a.command g, settled := min a.command g }

/-- A setpoint above the command falls to it at once, and the enable drops at 0 (R157, R158). -/
def Port.lower (x : Port) : Port :=
  if x.alloc.command < x.stage.setpoint then
    { x with stage := { x.stage with
        setpoint := x.alloc.command
        enable := if x.alloc.command = 0 then false else x.stage.enable } }
  else x

/-- The compute gives the pad of port `p` a result (R128): it gave a demand and has not stopped being eligible. -/
def Compute.hasResult (c : Compute) (p : PortId) (pad : PadId) : Bool :=
  c.demands.any (fun d => d.pad == pad) && !c.stopped[p]

/-- The grant of an own pad in the Rank List with its final grants. -/
def grantOf (es : List Ranked) (pad : PadId) : Nat :=
  ((es.find? fun e => e.own && e.pad == pad).map Ranked.grant).getD 0

/-- The deferred mark of an own pad (R125). -/
def deferredOf (es : List Ranked) (pad : PadId) : Bool :=
  ((es.find? fun e => e.own && e.pad == pad).map Ranked.deferred).getD false

/-- What the completion writes for one enabled port (R128 to R131). -/
def Compute.apply (c : Compute) (dUp : Nat) (es : List Ranked) (p : PortId) (pad : PadId) (x : Port) : Port :=
  Port.lower
    { x with alloc :=
        if c.hasResult p pad then x.alloc.result c.kind c.mode dUp (grantOf es pad) else ⟨0, 0, 0, 0⟩ }

/-- The demand entry of the CLAIM for an own demand that has a result (R133). -/
def State.claimEntry (s : State) (c : Compute) (es : List Ranked) (d : Demand) : Option ClaimEntry :=
  match carrierOf s.cfg d.pad with
  | none => none
  | some p =>
    if c.hasResult p d.pad then
      some
        { pad := d.pad
          cls := d.cls
          urgency := d.urgency
          overdue := d.overdue
          taper := d.taper
          deferred := deferredOf es d.pad
          floor := d.floor
          ask := d.ask
          intent := s.ports[p].alloc.intent
          measured := s.ports[p].stage.latest }
    else none

/-- The sum of the latest measured power of the enabled pads (R59, R133). -/
def State.nodeDraw (s : State) : Nat :=
  ((List.finRange 4).map fun p => if s.enabled p then s.ports[p].stage.latest else 0).sum

/-- The compute's CLAIM (R133); its round phase is written at each attempt (R79). -/
def State.buildClaim (s : State) (c : Compute) (es : List Ranked) : Claim where
  mode := c.mode
  short := c.short
  phase := 0
  draw := s.nodeDraw
  entries := c.demands.filterMap (s.claimEntry c es)

/-- Steps 1 to 4 of a completion (R119): results, budget short and headroom, the CLAIM in its slot, the commands at the
Stage Controller. -/
def State.applyCompute (s : State) (c : Compute) : State :=
  let (es, headroom) := c.run
  let s1 := s.updEnabled fun p x =>
    match s.cfg.portMap[p] with
    | some pad => c.apply s.cfg.dUp es p pad x
    | none => x
  let s2 := { s1 with engine := { s1.engine with
      inFlight := none, short := c.short, headroom := headroom, completed := some (c.kind, c.mode) } }
  { s2 with tx := s2.tx.placeClaim (s2.buildClaim c es) }

/-- The table changes that a HUNT entry during the compute left waiting (R103). -/
def State.settleHunt (s : State) : State :=
  if s.engine.huntPending then
    State.losePeers { s with engine := { s.engine with huntPending := false } }
  else s

/-- The ageing of the table that a boundary during the compute left waiting (R91). -/
def State.settleAge (s : State) : State :=
  if s.engine.agePending then State.agePeers { s with engine := { s.engine with agePending := false } } else s

/-- The remembered marks after a completion (R118). -/
def State.startRemembered (s : State) : State :=
  if s.engine.boundary then
    State.startCompute
      (State.settleAge { s with engine := { s.engine with boundary := false, request := false } }) .regular
  else if s.engine.request then
    State.startCompute { s with engine := { s.engine with request := false } } .outOfRound
  else s

/-- COMPUTE_COMPLETION (R119). With no compute in flight there is none to complete (log 3). -/
def execComputeCompletion (s : State) : Host.Outcome State Fault Refusal :=
  if s.boot = .running then
    match s.engine.inFlight with
    | some c => .next (s.applyCompute c).settleHunt.startRemembered.finish
    | none => .next s
  else .next s

/-! ### Raises (R135) -/

/-- The raise that one entry of a completed CLAIM asks for (R135). -/
def Port.raise (x : Port) (intent : Nat) : Port :=
  if x.session.state.eligible ∧ x.alloc.command < intent ∧ intent ≤ x.alloc.intent then
    { x with alloc := { x.alloc with command := intent } }
  else x

/-- The raises of a completed CLAIM, entry by entry (R135). -/
def State.raiseClaim (s : State) (entries : List ClaimEntry) : State :=
  entries.foldl
    (fun t e =>
      match carrierOf t.cfg e.pad with
      | some p => t.updPort p fun x => x.raise e.intent
      | none => t)
    s

/-- The work of a round boundary at the Allocation Engine (R117, R118), with the request that the boundary's own work
may have made. R118 leaves open which of the two is taken first: a free value (log 7). -/
def State.engineBoundary (s : State) : State :=
  let s1 := { s with engine := { s.engine with wanted := false } }
  match s.engine.inFlight with
  | some _ =>
    { s1 with engine := { s1.engine with boundary := true, request := s.engine.wanted || s.engine.request } }
  | none =>
    if s.engine.wanted then
      let s2 := { s1 with choice := s.choice + 1 }
      if Config.requestFirst s.choice then
        let s3 := s2.startCompute .outOfRound
        { s3 with engine := { s3.engine with boundary := true } }
      else
        let s3 := s2.startCompute .regular
        { s3 with engine := { s3.engine with request := true } }
    else s1.startCompute .regular

end Sys2Proof.Machine
end

