-- ==== Sys2Proof/WellFormed.lean ====
section
/-! DEFINITION. WellFormed.lean: the commands whose operands spell an event the part can meet. -/

namespace Sys2Proof

/-- The longest time in ms from a frame's SOF mark to its classification. DEDUCED from R39, R41 and R44 (log 14): at
most 262 bytes of content, a stuff bit for every four data bits, 2 µs a bit. -/
def maxFrameAge : Nat := 6

/-- A frame's body has a length its header can state (R191). -/
def Frame.wellFormed (f : Frame) : Bool := f.body.length ≤ 255

/-- Whether the operands of a command spell an event. A command for which this is false stops with `illFormed`
(log 4). -/
def Instr.wellFormed : Instr → Bool
  | .configReadComplete image _ => image.length == 128
  | .unknownKindRecord _ kind => kind != 0x01 && kind != 0x02 && kind != 0x03
  | .frameGood f age => f.wellFormed && decide (age ≤ maxFrameAge)
  | .frameBad _ age => decide (age ≤ maxFrameAge)
  | .frameAborted age => decide (age ≤ maxFrameAge)
  | .reset | .startupBegin _ | .configReadAttemptFail _ | .configReadRetry
  | .presenceRise _ | .presenceFall _ | .malformedRecord _ | .dock _ _ | .update _ _ | .depart _ _
  | .recordInConfigFail _ _ | .padReply _ | .contactLoss _ | .secondMark | .roundBoundary
  | .noticeRejected | .drainClaim | .drainAnnounce | .drainStatus | .drainCurtail
  | .directiveClear | .directivePadOffline | .directivePadOnline | .computeCompletion
  | .attemptStart _ | .transmissionComplete | .collision | .abortEnd
  | .curtailAssertion | .curtailRelease | .measureTickSend _ | .statusArrival _ _ | .noAnswer _
  | .retryTimerExpiry _ => true

end Sys2Proof
end

