-- ==== Sys2Proof/Machine/Contact.lean ====
section
/-! DEFINITION. Machine/Contact.lean: presence, the vehicle records with their replies, contact silence and the seconds
countdown (chapter 1, and R28 of chapter 2). -/

namespace Sys2Proof.Machine

/-! ### Presence (R4, R5) -/

/-- The presence filter of port `p` has an edge to the given level (R4): the input shows it, and has held it for 50 ms
against the filtered level. -/
def State.presenceEdge (s : State) (p : PortId) (up : Bool) : Bool :=
  s.serves p && s.ports[p].level != up && s.pins.presence.getLsbD p.val == up
    && decide (Config.presenceTime ≤ s.ports[p].change)

/-- PRESENCE_RISE (R4): a VACANT pad goes to ARRIVED. -/
def execPresenceRise (p : PortId) (s : State) : Host.Outcome State Fault Refusal :=
  if s.presenceEdge p true then
    .next (s.updPort p fun x =>
      { x with level := true
               change := 0
               session := { x.session with
                 state := if x.session.state = .vacant then .arrived else x.session.state } })
  else .next s

/-- PRESENCE_FALL (R5): an ARRIVED pad goes to VACANT, an admitted session ends, an OFFLINE pad remembers the level. -/
def execPresenceFall (p : PortId) (s : State) : Host.Outcome State Fault Refusal :=
  if s.presenceEdge p false then
    let s1 := s.updPort p fun x =>
      { x with level := false
               change := 0
               session := { x.session with
                 state := if x.session.state = .arrived then .vacant else x.session.state } }
    if s.ports[p].session.state.admitted then .next (s1.endSession p .vacant true).finish else .next s1.finish
  else .next s

/-! ### Records in general (R6, R7, R19) -/

/-- The contact receiver listens: no reply is being sent on the link (R7). -/
def State.listens (s : State) (p : PortId) : Bool := s.ports[p].link.reply.isNone

/-- The link of an enabled port takes a record: the part runs and the receiver listens. -/
def State.takesRecord (s : State) (p : PortId) : Bool := s.serves p && s.listens p

/-- MALFORMED_RECORD (R6): the contact error count rises. -/
def execMalformedRecord (p : PortId) (s : State) : Host.Outcome State Fault Refusal :=
  if s.takesRecord p then
    .next (s.updPort p fun x => { x with session := { x.session with errors := sat255 x.session.errors } })
  else .next s

/-- The setpoint a reply reports: the command of an eligible pad, 0 otherwise (R7). -/
def Port.replySetpoint (x : Port) : Nat := if x.session.state.eligible then x.alloc.command else 0

/-- The pad reply formed from the port as it stands (R7). -/
def Port.reply (x : Port) (pad : Nat) (reason : Reason) : Reply where
  pad := pad
  state := x.session.state
  setpoint := x.replySetpoint
  energy := if x.session.state.admitted then x.session.energy else 0
  reason := reason

/-- The pad reply is formed (R7). -/
def State.formReply (s : State) (p : PortId) (reason : Reason) : State :=
  s.updPort p fun x =>
    { x with link := { x.link with reply := some (x.reply ((s.cfg.portMap[p].map Fin.val).getD 0) reason, 0) } }

/-- An accepted record reaches the silence watch (R7, R19): with a session the watch restarts, and CONTACT_LOSS, if
present, is reported cleared. -/
def State.hear (s : State) (p : PortId) : State :=
  if s.ports[p].session.state.admitted then
    let lost := s.ports[p].session.contactLoss
    let s1 := s.updPort p fun x =>
      { x with session := { x.session with lastHeard := some s.now, watch := some s.now, contactLoss := false } }
    if lost then s1.updFault p fun f => f.clear .contactLoss else s1
  else s

/-- The answer to an accepted record in CONFIG_FAIL (R15), on every physical port. -/
def State.failReply (s : State) (p : PortId) (reason : Reason) : State :=
  if s.listens p then
    s.updPort p fun x => { x with link := { x.link with reply := some (⟨p.val, .vacant, 0, 0, reason⟩, 0) } }
  else s

/-- OK, or FAULT when the pad is HELD after the record (R8). -/
def Port.appliedReason (x : Port) : Reason := if x.session.state = .held then .fault else .ok

/-- The state of an admitted session set again after a record (R11, R13): HELD stays, E = 0 gives COMPLETE, COMPLETE with
energy becomes WAITING, and an eligible session keeps the state its latest send gave it (log 13). -/
def PadState.again (x : PadState) (energy : Nat) : PadState :=
  match x with
  | .held => .held
  | .complete => if energy = 0 then .complete else .waiting
  | y => if energy = 0 then .complete else y

/-- A session rewritten by a record, its flags judged and its state set again (R11, R13, R137). -/
def State.restate (s : State) (p : PortId) (f : Session → Session) : State :=
  let s1 := s.updPort p fun x =>
    let y := (f x.session).judge
    { x with session := { y with state := y.state.again y.energy } }
  if s.ports[p].session.state.eligible ∧ s1.ports[p].session.state.eligible = false then
    (s1.updPort p Port.stopEligible).markStopped p
  else s1

/-! ### DOCK (R9 to R12) -/

/-- The record of an admitted session (R10). -/
def DockRequest.session (q : DockRequest) (errors now : Nat) (held : Bool) : Session :=
  Session.judge
    { Session.empty (if held then .held else if q.energy = 0 then .complete else .waiting) errors with
      vehicle := q.vehicle
      cls := q.cls
      energy := q.energy
      timeLeft := q.timeLeft
      pMax := q.pMax
      pMin := q.pMin
      lastHeard := some now
      watch := some now }

/-- An admission (R10); an admission into HELD is an entry to HELD and restarts the monitors (R160, log 11). -/
def Port.takeIn (x : Port) (q : DockRequest) (now : Nat) : Port :=
  let y := { x with session := q.session x.session.errors now x.fault.held }
  if x.fault.held then y.restart else y

/-- A validated DOCK reaching a pad with no session (R10). -/
def State.dockEmpty (s : State) (p : PortId) (q : DockRequest) : State :=
  match s.ports[p].session.state with
  | .offline => s.formReply p .offline
  | .vacant => s.formReply p .noPresence
  | _ =>
    if s.ports[p].fault.inForce.stageLatched then s.formReply p .fault
    else
      let s1 := s.updPort p fun x => x.takeIn q s.now
      s1.formReply p s1.ports[p].appliedReason

/-- A DOCK that replaces the session's request (R11). -/
def DockRequest.replace (q : DockRequest) (x : Session) : Session :=
  { x with cls := q.cls, energy := q.energy, timeLeft := q.timeLeft, pMax := q.pMax, pMin := q.pMin, acc := 0,
           cap := none }

/-- A DOCK applied to an enabled port (R9 to R12). -/
def State.dock (s : State) (p : PortId) (r : DockRecord) : State :=
  if dockRefused r then s.formReply p .badRequest
  else
    let q := dockClamp r s.cfg.rating[p]
    if s.ports[p].session.state.admitted then
      if s.ports[p].session.vehicle = q.vehicle then
        let s1 := s.restate p q.replace
        s1.formReply p s1.ports[p].appliedReason
      else (s.endSession p .arrived true).dockEmpty p q
    else s.dockEmpty p q

/-- DOCK (R7, R9 to R12; R15 in CONFIG_FAIL). -/
def execDock (p : PortId) (r : DockRecord) (s : State) : Host.Outcome State Fault Refusal :=
  if s.boot = .configFail then .next (s.failReply p .fault)
  else if s.takesRecord p then .next ((s.hear p).dock p r).finish
  else .next s

/-! ### UPDATE, DEPART and the rest (R13 to R15) -/

/-- The session an UPDATE leaves (R13, R29). -/
def UpdateRecord.apply (r : UpdateRecord) (rating : Nat) (x : Session) : Session :=
  let y := { x with
    energy := min r.energy.toNat Config.maxEnergy
    acc := 0
    timeLeft := (r.deadline.map BitVec.toNat).or x.timeLeft }
  match r.maxPower with
  | none => y
  | some m =>
    let pMax := min m.toNat rating
    { y with pMax := pMax, cap := none, pMin := x.pMin.map (min · pMax) }

/-- An UPDATE applied to an enabled port (R13). -/
def State.update (s : State) (p : PortId) (r : UpdateRecord) : State :=
  if s.ports[p].session.state.admitted = false ∨ updateRefused r = true then s.formReply p .badRequest
  else
    let s1 := s.restate p (UpdateRecord.apply r s.cfg.rating[p])
    s1.formReply p s1.ports[p].appliedReason

/-- UPDATE (R7, R13; R15 in CONFIG_FAIL). -/
def execUpdate (p : PortId) (r : UpdateRecord) (s : State) : Host.Outcome State Fault Refusal :=
  if s.boot = .configFail then .next (s.failReply p .badRequest)
  else if s.takesRecord p then .next ((s.hear p).update p r).finish
  else .next s

/-- A DEPART applied to an enabled port (R14). -/
def State.depart (s : State) (p : PortId) (vehicle : BitVec 32) : State :=
  if s.ports[p].session.state.admitted ∧ s.ports[p].session.vehicle = vehicle then
    (s.endSession p .arrived true).formReply p .ok
  else s.formReply p .badRequest

/-- DEPART (R7, R14; R15 in CONFIG_FAIL). -/
def execDepart (p : PortId) (vehicle : BitVec 32) (s : State) : Host.Outcome State Fault Refusal :=
  if s.boot = .configFail then .next (s.failReply p .badRequest)
  else if s.takesRecord p then .next ((s.hear p).depart p vehicle).finish
  else .next s

/-- UNKNOWN_KIND_RECORD (R7, R15). -/
def execUnknownKindRecord (p : PortId) (kind : Byte) (s : State) : Host.Outcome State Fault Refusal :=
  if (Instr.unknownKindRecord p kind).wellFormed = false then .fault .illFormed
  else if s.boot = .configFail then .next (s.failReply p .badRequest)
  else if s.takesRecord p then .next ((s.hear p).formReply p .badRequest).finish
  else .next s

/-- RECORD_IN_CONFIG_FAIL (R15): FAULT for a DOCK, BAD_REQUEST for any other kind. -/
def execRecordInConfigFail (p : PortId) (kind : Byte) (s : State) : Host.Outcome State Fault Refusal :=
  if s.boot = .configFail then .next (s.failReply p (if kind = 0x01 then .fault else .badRequest)) else .next s

/-- PAD_REPLY (R7): the reply formed has gone out, and the contact receiver listens again. -/
def execPadReply (p : PortId) (s : State) : Host.Outcome State Fault Refusal :=
  match s.ports[p].link.reply with
  | some (r, _) => .next (s.updPort p fun x => { x with link := { reply := none, sent := some r } })
  | none => .next s

/-! ### Contact silence and the countdown (R19, R28) -/

/-- CONTACT_LOSS (R19): the condition is raised for an admitted session and the watch restarts. -/
def execContactLoss (p : PortId) (s : State) : Host.Outcome State Fault Refusal :=
  if s.serves p ∧ s.ports[p].session.state.admitted = true then
    .next (((s.updPort p fun x =>
        { x with session := { x.session with contactLoss := true, watch := some s.now } }).updFault p
      fun f => f.raise .contactLoss s.cfg.responses.contactLoss).finish)
  else .next s

/-- One second of the countdown (R28, R30, R33). -/
def Session.second (x : Session) : Session :=
  match x.timeLeft with
  | some (t + 1) => if x.state.admitted then Session.judge { x with timeLeft := some t } else x
  | _ => x

/-- SECOND_MARK (R28): common to all pads. -/
def execSecondMark (s : State) : Host.Outcome State Fault Refusal :=
  if s.boot = .running then .next (s.updEnabled fun _ x => { x with session := x.session.second }) else .next s

end Sys2Proof.Machine
end

