-- ==== Sys2Proof/Machine/CurtailPin.lean ====
section
/-! DEFINITION. Machine/CurtailPin.lean: the filtered edges of the CURTAIL pin (R142 to R144). -/

namespace Sys2Proof.Machine

/-- The CURTAIL filter has an edge to the given level (R142): the pin shows it, and has held it for 20 ms against the
filtered level. -/
def State.curtailEdge (s : State) (low : Bool) : Bool :=
  s.boot == .running && s.curtail.pin != low && s.pins.curtail == low && decide (Config.curtailTime ≤ s.curtail.hold)

/-- CURTAIL_ASSERTION (R143): local curtail takes force, the ceiling follows, a compute is requested and an assert notice
is placed. -/
def execCurtailAssertion (s : State) : Host.Outcome State Fault Refusal :=
  if s.curtailEdge true then
    let s1 := State.retarget { s with curtail := { s.curtail with pin := true, hold := 0, localForce := true } }
    .next (s1.judgeCeiling.request.placeCurtail true).finish
  else .next s

/-- CURTAIL_RELEASE (R144): local curtail ends, the target is recomputed, and one release notice is placed. -/
def execCurtailRelease (s : State) : Host.Outcome State Fault Refusal :=
  if s.curtailEdge false then
    let s1 := State.retarget { s with curtail := { s.curtail with pin := false, hold := 0, localForce := false } }
    .next (s1.judgeCeiling.placeCurtail false).finish
  else .next s

end Sys2Proof.Machine
end

