-- ==== Sys2Proof/Machine/Drain.lean ====
section
/-! DEFINITION. Machine/Drain.lean: draining the Receive Queue (R67 to R73) into the Peer Table (chapter 6), the Curtail
Monitor (R145) and the directive dispatch (R20, R21, R73, R174). -/

namespace Sys2Proof.Machine

/-- The oldest entry of the Receive Queue when the updater may take it: the part runs and no compute is in flight (R67). -/
def State.oldest (s : State) : Option Queued :=
  if s.boot = .running ∧ s.engine.inFlight = none then s.line.queue.head? else none

/-- The oldest entry leaves the queue (R67). -/
def State.removeOldest (s : State) : State := { s with line := { s.line with queue := s.line.queue.tail } }

/-- The notice that the oldest entry carries, if it passes the checks (R69). -/
def State.oldestNotice (s : State) : Option Notice := s.oldest.bind fun q => checkNotice q.notice

/-- NOTICE_REJECTED (R69): the oldest entry fails a check; it is discarded and counted. -/
def execNoticeRejected (s : State) : Host.Outcome State Fault Refusal :=
  match s.oldest with
  | some q =>
    match checkNotice q.notice with
    | none => .next { s.removeOldest with badKind := sat255 s.badKind }
    | some _ => .next s
  | none => .next s

/-! ### Peer Table drains -/

/-- The phase error of a CLAIM: the claim's phase minus the stamp phase, brought into -250 to 249 (R108). -/
def phaseError (claimPhase stampPhase : Nat) : Int :=
  let e : Int := (claimPhase : Int) - (stampPhase : Int)
  if 249 < e then e - 500 else if e < -250 then e + 500 else e

/-- The stamp of an entry is usable (R71). -/
def Queued.usable (q : Queued) (count : Nat) : Bool := q.stamp.count == count && !q.overrun

/-- The fields of a claimed demand that are stored (R87). -/
def ClaimEntry.stored (e : ClaimEntry) : PeerDemand := ⟨e.pad, e.cls, e.urgency, e.floor, e.ask, e.intent⟩

/-- A CLAIM written into its sender's entry (R90), with the phase error of R71. -/
def PeerEntry.claimed (e : PeerEntry) (c : Claim) (err : Option Int) : PeerEntry :=
  { e with heard := true, age := 0, claim := some ⟨c.mode, c.entries.map ClaimEntry.stored⟩, draw := c.draw,
           phaseErr := err }

/-- A Peer Table entry rewritten by a drain, with CONFIG_CONFLICT judged (R96). The SELF entry is never written (R88). -/
def State.updPeer (s : State) (j : NodeId) (f : PeerEntry → PeerEntry) : State :=
  if j = s.nodeId then s else State.judgeConflict { s with peers := s.peers.set j (f s.peers[j]) }

/-- The request of R101: the drain has raised the sender's contribution or lowered L_low. `before` is the state before
the drain. -/
def State.requestIfRaised (s before : State) (j : NodeId) : State :=
  if before.contribution j < s.contribution j ∨ s.lLow < before.lLow then s.request else s

/-- DRAIN_CLAIM (R90, R71, R101). -/
def execDrainClaim (s : State) : Host.Outcome State Fault Refusal :=
  match s.oldest, s.oldestNotice with
  | some q, some (.claim j c) =>
    let err := if q.usable s.round.count then some (phaseError c.phase q.stamp.phase) else none
    .next ((s.removeOldest.updPeer j fun e => e.claimed c err).requestIfRaised s j).finish
  | _, _ => .next s

/-- DRAIN_ANNOUNCE (R94, R97, R101, R150). -/
def execDrainAnnounce (s : State) : Host.Outcome State Fault Refusal :=
  match s.oldestNotice with
  | some (.announce j a) =>
    let s1 := s.removeOldest.updPeer j fun e => { e with fingerprint := some ⟨a.lCfg, a.guard, a.nCfg⟩ }
    .next (s1.judgeCeiling.requestIfRaised s j).finish
  | _ => .next s

/-- DRAIN_STATUS (R98, R101). -/
def execDrainStatus (s : State) : Host.Outcome State Fault Refusal :=
  match s.oldestNotice with
  | some (.status j duplicate) =>
    .next ((s.removeOldest.updPeer j fun e => { e with dupMark := duplicate }).requestIfRaised s j).finish
  | _ => .next s

/-! ### The Curtail Set (R145) -/

/-- A CURTAIL from sender `j` at the Curtail Set (R145). -/
def CurtailMonitor.notice (m : CurtailMonitor) (j : NodeId) (c : Curtail) : CurtailMonitor :=
  { m with set := m.set.set j (if c.assert then some ⟨c.percent, 0⟩ else none) }

/-- DRAIN_CURTAIL (R145): a compute is requested when the ceiling falls and when an entry is inserted into an empty set. -/
def execDrainCurtail (s : State) : Host.Outcome State Fault Refusal :=
  match s.oldestNotice with
  | some (.curtail j c) =>
    let s0 := s.removeOldest
    let s1 := State.retarget { s0 with curtail := s0.curtail.notice j c }
    let s2 := s1.judgeCeiling
    let starts := c.assert && !s.curtail.anyEntry
    if s1.curtail.ceiling < s.curtail.ceiling ∨ starts = true then .next s2.request.finish else .next s2.finish
  | _ => .next s

/-! ### Directives (R72, R73) -/

/-- A directive is the node's own: its target is the own id or 31 (R72). -/
def Directive.isFor (d : Directive) (id : NodeId) : Bool := d.target == id.val || d.target == 31

/-- The ports that carry the pads named in the mask (R73). -/
def State.named (s : State) (d : Directive) : List PortId :=
  (List.finRange 4).filterMap fun pad : PadId => if d.pads[pad] then carrierOf s.cfg pad else none

/-- The oldest entry is a DIRECTIVE of the given action. -/
def State.oldestDirective (s : State) (a : Action) : Option Directive :=
  match s.oldestNotice with
  | some (.directive d) => if d.action = a then some d else none
  | _ => none

/-- DIRECTIVE_CLEAR (R73, R174, R99): the named pads are cleared, and the node bit ends DUPLICATE_ID. Another node's
directive is discarded uncounted (R72). -/
def execDirectiveClear (s : State) : Host.Outcome State Fault Refusal :=
  match s.oldestDirective .clear with
  | some d =>
    if d.isFor s.nodeId then
      let s1 := (s.named d).foldl
        (fun t p => t.updFault p fun f => f.clearDirective s.cfg.responses) s.removeOldest
      let s2 := if d.node then State.judgeMode { s1 with duplicateId := false } else s1
      .next s2.finish
    else .next s.removeOldest
  | none => .next s

/-- A pad taken out of service (R20). -/
def State.padOffline (s : State) (p : PortId) : State :=
  if s.ports[p].session.state.admitted then s.endSession p .offline false
  else s.updPort p fun x => { x with session := { x.session with state := .offline } }

/-- DIRECTIVE_PAD_OFFLINE (R20, R73). -/
def execDirectivePadOffline (s : State) : Host.Outcome State Fault Refusal :=
  match s.oldestDirective .padOffline with
  | some d =>
    if d.isFor s.nodeId then .next ((s.named d).foldl State.padOffline s.removeOldest).finish
    else .next s.removeOldest
  | none => .next s

/-- A pad put back into service (R21). -/
def Port.online (x : Port) : Port :=
  if x.session.state = .offline then
    { x with session := { x.session with state := if x.level then .arrived else .vacant } }
  else x

/-- DIRECTIVE_PAD_ONLINE (R21, R73). -/
def execDirectivePadOnline (s : State) : Host.Outcome State Fault Refusal :=
  match s.oldestDirective .padOnline with
  | some d =>
    if d.isFor s.nodeId then .next ((s.named d).foldl (fun t p => t.updPort p Port.online) s.removeOldest)
    else .next s.removeOldest
  | none => .next s

end Sys2Proof.Machine
end

