-- ==== Sys2Proof/Machine/Clock.lean ====
section
/-! DEFINITION. Machine/Clock.lean: what the part does when no command waits (log 1): it hands an event that is due now to
the queue, or lets one millisecond of the node timebase pass. -/

namespace Sys2Proof.Machine

/-- The command that drains the oldest entry of the Receive Queue, when the updater may take it (R67). -/
def State.drainDue (s : State) : Option Instr :=
  s.oldest.map fun q =>
    match checkNotice q.notice with
    | none => .noticeRejected
    | some (.claim _ _) => .drainClaim
    | some (.announce _ _) => .drainAnnounce
    | some (.status _ _) => .drainStatus
    | some (.curtail _ _) => .drainCurtail
    | some (.directive d) =>
      match d.action with
      | .clear => .directiveClear
      | .padOffline => .directivePadOffline
      | .padOnline => .directivePadOnline

/-- The enabled ports whose measure tick is due now (R155). -/
def State.ticksDue (s : State) : List PortId :=
  (List.finRange 4).filter fun p => s.enabled p && decide (s.ports[p].stage.nextTick ≤ s.now)

/-- The due ticks are handed to the queue, and each port's next tick is 100 ms later (R155). -/
def State.handTicks (s : State) : State :=
  { s with
    pending := s.ticksDue.map .measureTickSend
    ports := Vector.ofFn fun p : Fin 4 =>
      if s.enabled p ∧ s.ports[p].stage.nextTick ≤ s.now then
        { s.ports[p] with stage := { s.ports[p].stage with
            nextTick := s.ports[p].stage.nextTick + Config.tickPeriod } }
      else s.ports[p] }

/-- The enabled ports with the property. -/
def State.portsWith (s : State) (f : Port → Bool) : List PortId :=
  (List.finRange 4).filter fun p => s.enabled p && f s.ports[p]

/-- A port's timers one millisecond on: the retry timer (R171), the answer window (R155) and the reply's age (R7). -/
def Port.millisecond (x : Port) : Port :=
  { x with
    fault := { x.fault with timer := x.fault.timer.map (· - 1) }
    stage := { x.stage with awaiting := x.stage.awaiting.map (· + 1) }
    link := { x.link with reply := x.link.reply.map fun r => (r.1, r.2 + 1) } }

/-- A count of the ms for which an input has held the other level (R4, R142): it starts again when the input shows the
filtered level, and stops at the filter's time. -/
def heldFor (filtered shown : Bool) (count limit : Nat) : Nat := if shown = filtered then 0 else min limit (count + 1)

/-- The pins of the coming millisecond: the nearest coming levels, or the levels as they are when none is listed (log 21). -/
def State.upcoming (s : State) : Pins := s.coming.headD s.pins

/-- A millisecond after whose start RESET had been low for `hold` µs puts the part in reset (R184, R194): the supply falls
below 2.85 V, or RESET has been held low for at least 1 ms. A shorter low is discarded. -/
def Pins.resets (x : Pins) (hold : Nat) : Bool :=
  decide (x.supply < Config.supplyMin) || decide (Config.resetTime ≤ hold + x.resetLead)
    || decide (Config.resetTime ≤ x.resetTail)

/-- The µs for which RESET has been low at the end of the millisecond, up to the filter's time (R184). -/
def Pins.holdAfter (x : Pins) (hold : Nat) : Nat :=
  min Config.resetTime (if Config.resetTime ≤ x.resetLead then hold + x.resetLead else x.resetTail)

/-- The pins one millisecond on, with the RESET filter (R184). -/
def State.nextPins (s : State) : State :=
  { s with pins := s.upcoming, coming := s.coming.tail, resetHold := s.upcoming.holdAfter s.resetHold }

/-- The filters of the presence inputs (R4) and of the CURTAIL pin (R142) take in the levels of the millisecond that has
passed. -/
def State.filterPins (s : State) : State :=
  { s with
    ports := Vector.ofFn fun p : Fin 4 =>
      if s.enabled p then
        { s.ports[p] with
          change := heldFor s.ports[p].level (s.pins.presence.getLsbD p.val) s.ports[p].change Config.presenceTime }
      else s.ports[p]
    curtail := { s.curtail with
      hold := heldFor s.curtail.pin s.pins.curtail s.curtail.hold Config.curtailTime } }

/-- A reply that begins now at the latest (R7). -/
def Port.replyDue (x : Port) : Bool := x.link.reply.any fun r => decide (Config.replyTime ≤ r.2)

/-- The commands that fall due at the millisecond mark just passed, in a fixed order (log 1). The second marks stand at whole
seconds after start-up completes: R28 has them run freely from start-up and fixes no instant for the first. DESIGN CHOICE
(log 39). -/
def State.dueNow (s : State) : List Instr :=
  (s.portsWith fun x => x.fault.timer == some 0).map Instr.retryTimerExpiry
    ++ (s.portsWith fun x => x.stage.awaiting.any fun n => decide (Config.answerWindow ≤ n)).map Instr.noAnswer
    ++ (s.portsWith Port.replyDue).map Instr.padReply
    ++ ((List.finRange 4).filter fun p => s.presenceEdge p true).map Instr.presenceRise
    ++ ((List.finRange 4).filter fun p => s.presenceEdge p false).map Instr.presenceFall
    ++ (if s.curtailEdge true then [Instr.curtailAssertion] else [])
    ++ (if s.curtailEdge false then [Instr.curtailRelease] else [])
    ++ (s.portsWith fun x => x.session.state.admitted
          && x.session.watch.any fun w => decide (w + Config.silenceTime ≤ s.now)).map Instr.contactLoss
    ++ (if s.now % 1000 = 0 then [Instr.secondMark] else [])
    ++ (if s.engine.inFlight.any fun c => decide (Config.computeTime ≤ c.elapsed) then [Instr.computeCompletion] else [])
    ++ (if s.round.length ≤ s.round.phase + 1 then [Instr.roundBoundary] else [])

/-- One millisecond mark of the node timebase in the running part. The round phase rises, or stands at the round's last
millisecond for the boundary that falls instead (R105, R106). -/
def State.millisecond (s : State) : State :=
  let boundary := s.round.length ≤ s.round.phase + 1
  let s1 : State := State.filterPins { s.nextPins with
    now := s.now + 1
    ports := Vector.ofFn fun p : Fin 4 => s.ports[p].millisecond
    engine := { s.engine with
      inFlight := s.engine.inFlight.map fun c => { c with elapsed := c.elapsed + 1 } } }
  { s1 with
    pending := s1.dueNow
    round := { s.round with phase := if boundary then s.round.phase else s.round.phase + 1 } }

/-- A millisecond in CONFIG_FAIL: only the contact links answer (R15). -/
def State.failMillisecond (s : State) : State :=
  let s1 := { s.nextPins with ports := Vector.ofFn fun p : Fin 4 => s.ports[p].millisecond }
  { s1 with pending := ((List.finRange 4).filter fun p => s1.ports[p].replyDue).map .padReply }

/-- A millisecond with attempt `n` due for `t` ms (R185): it begins when the bus is free, and fails when it could not begin
within 10 ms. -/
def State.dueMillisecond (s : State) (n t : Nat) : State :=
  if s.pins.busLow = false then { s with boot := .reading n 0 }
  else if Config.beginWindow ≤ t + 1 then { s with pending := [.configReadAttemptFail .busHeldLow] }
  else { s with boot := .due n (t + 1) }

/-- A millisecond in which no reset comes: each operation's own. -/
def State.elapse (s : State) : State :=
  match s.boot with
  | .held => s.nextPins
  | .due n t => s.nextPins.dueMillisecond n t
  | .reading n t =>
    if Config.readWindow ≤ t + 1 then { s.nextPins with pending := [.configReadAttemptFail .timedOut] }
    else { s.nextPins with boot := .reading n (t + 1) }
  | .waiting n t =>
    if Config.readPause ≤ t + 1 then { s.nextPins with pending := [.configReadRetry] }
    else { s.nextPins with boot := .waiting n (t + 1) }
  | .configFail => s.failMillisecond
  | .running => s.millisecond

/-- A millisecond mark: a reset that it brings is handed over in place of all else (R184). In reset none is. -/
def State.mark (s : State) : State :=
  if s.boot ≠ .held ∧ s.upcoming.resets s.resetHold = true then { s.nextPins with pending := [.reset] } else s.elapse

/-- An idle step (log 1). -/
def State.idle (s : State) : State :=
  if s.boot = .running then
    match s.drainDue with
    | some c => { s with pending := [c] }
    | none => if s.ticksDue = [] then s.mark else s.handTicks
  else s.mark

end Sys2Proof.Machine
end

