-- ==== Sys2Proof/Machine/Wire.lean ====
section
/-! DEFINITION. Machine/Wire.lean: the bits and bytes below the commands: CRCs (R42, R190), bit stuffing (R41), what a
transmitter puts on the line (R40), the Line Receiver bit by bit (R43 to R45), the contact receiver character by character
(R6, R192), the stage messages (R192), the order of bits on the UART and I2C links (R190) and the image read (R193). These
functions say which command an arrival is. -/

namespace Sys2Proof.Machine

/-! ### Bits and CRCs -/

/-- The bits of a byte, most significant first (R190). -/
def byteBits (b : Byte) : List Bool :=
  [b.getLsbD 7, b.getLsbD 6, b.getLsbD 5, b.getLsbD 4, b.getLsbD 3, b.getLsbD 2, b.getLsbD 1, b.getLsbD 0]

/-- The bits of a list of bytes, in the order they go on the line (R40). -/
def bytesBits : List Byte → List Bool
  | [] => []
  | b :: bs => byteBits b ++ bytesBits bs

/-- The byte whose bits, most significant first, are the given eight. -/
def bitsByte (b7 b6 b5 b4 b3 b2 b1 b0 : Bool) : Byte :=
  BitVec.ofNat 8 (flagBit b7 128 + flagBit b6 64 + flagBit b5 32 + flagBit b4 16 + flagBit b3 8 + flagBit b2 4
    + flagBit b1 2 + flagBit b0 1)

/-- The bytes of a list of bits; `none` off a byte boundary. -/
def bitsBytes : List Bool → Option (List Byte)
  | [] => some []
  | b7 :: b6 :: b5 :: b4 :: b3 :: b2 :: b1 :: b0 :: rest => (bitsBytes rest).map (bitsByte b7 b6 b5 b4 b3 b2 b1 b0 :: ·)
  | _ => none

/-- One bit through the CRC-16 register: x^16 + x^15 + x^2 + 1 (R42). -/
def crc16Bit (r : BitVec 16) (b : Bool) : BitVec 16 :=
  if r.getLsbD 15 ^^ b then (r <<< 1) ^^^ 0x8005#16 else r <<< 1

/-- The CRC-16 over bytes, preset to all ones, no final inversion (R42). -/
def crc16 (bs : List Byte) : BitVec 16 := (bytesBits bs).foldl crc16Bit 0xFFFF#16

/-- One bit through the CRC-8 register: x^8 + x^2 + x + 1 (R190). -/
def crc8Bit (r : BitVec 8) (b : Bool) : BitVec 8 :=
  if r.getLsbD 7 ^^ b then (r <<< 1) ^^^ 0x07#8 else r <<< 1

/-- The CRC-8 over bytes, preset to all ones, no final inversion (R190). -/
def crc8 (bs : List Byte) : Byte := (bytesBits bs).foldl crc8Bit 0xFF#8

/-- The two CRC bytes, high-order byte first (R42). -/
def crcBytes (c : BitVec 16) : List Byte := [hiByte c.toNat, loByte c.toNat]

/-! ### Sending a frame (R40, R41) -/

/-- The stuffed bits when the run so far is `n` bits of value `v` (R41). -/
def stuffRun (v : Bool) (n : Nat) : List Bool → List Bool
  | [] => []
  | b :: bs =>
    let m := if b = v then n + 1 else 1
    if m = 5 then b :: (!b) :: stuffRun (!b) 1 bs else b :: stuffRun b m bs

/-- The content bits stuffed (R41): the count starts afresh at the first content bit. -/
def stuff (bits : List Bool) : List Bool := stuffRun false 0 bits

/-- Header and body bytes of a frame (R191). -/
def Frame.covered (f : Frame) : List Byte := [f.kind, f.sender, f.feeder, loByte f.body.length] ++ f.body

/-- The content of a frame: header, body, CRC-16 (R42, R191). -/
def Frame.content (f : Frame) : List Byte := Frame.covered f ++ crcBytes (crc16 (Frame.covered f))

/-- What a transmitter puts on the line: 7 zeros and a 1, the stuffed content, 8 ones (R40). -/
def Frame.lineBits (f : Frame) : List Bool :=
  List.replicate 7 false ++ [true] ++ stuff (bytesBits (Frame.content f)) ++ List.replicate 8 true

/-- The abort sequence: 10 zeros, not stuffed (R40). -/
def abortBits : List Bool := List.replicate 10 false

/-- What a transmitter puts on the line that stops after `sent` bits of a frame, at least its first SOF zero: those bits,
SOF bits, content bits, stuff bits and end bits alike, then at once the abort sequence (R40). -/
def Frame.abortedBits (f : Frame) (sent : Nat) : List Bool := (Frame.lineBits f).take sent ++ abortBits

/-- How many bits have been sent when the level read at mid-bit first differs from the level driven, a difference either way
and the bit that differs counted; `none` without one (R80). Bits past the levels given count as read back alike. -/
def collisionAt : List Bool → List Bool → Option Nat
  | driven :: ds, level :: ls => if driven = level then (collisionAt ds ls).map (· + 1) else some 1
  | _, _ => none

/-- What an attempt puts on the line from the first SOF zero to the release of the driver, `levels` being what it reads back:
the whole frame, or the bits up to the collision and the abort sequence, which is not read back (R40, R79, R80). -/
def Frame.attemptBits (f : Frame) (levels : List Bool) : List Bool :=
  match collisionAt (Frame.lineBits f) levels with
  | none => Frame.lineBits f
  | some sent => Frame.abortedBits f sent

/-- The commands that such an attempt is: its completion, or its collision and then the release of the driver after the
abort (R79, R80, R82). -/
def Frame.attemptCommands (f : Frame) (levels : List Bool) : List Instr :=
  if (collisionAt (Frame.lineBits f) levels).isSome then [.collision, .abortEnd] else [.transmissionComplete]

/-! ### The Line Receiver, bit by bit (R43 to R45) -/

/-- A frame being received: the run of identical bits so far, how many of its bits were accepted as data, and the data
bits, newest first. -/
structure Reception where
  value : Bool
  run : Nat
  accepted : Nat
  data : List Bool
  deriving DecidableEq, Repr

/-- The receiver: between frames it counts the run of ones (up to 12) and the run of zeros after it (up to 8). -/
inductive Receiver where
  | hunting (ones zeros : Nat)
  | inFrame (r : Reception)
  deriving DecidableEq, Repr

/-- The classification of a frame at its arrival (R44, R45). -/
inductive Arrival where
  | good (f : Frame)
  | bad (cause : BadCause)
  | aborted
  deriving DecidableEq, Repr

/-- The frame that good content bytes carry (R45, items 2 to 4). -/
def contentFrame : List Byte → Option Frame
  | kind :: sender :: feeder :: length :: rest =>
    if rest.length = length.toNat + 2 then
      let f : Frame := ⟨kind, sender, feeder, rest.take length.toNat⟩
      if rest.drop length.toNat = crcBytes (crc16 (Frame.covered f)) then some f else none
    else none
  | _ => none

/-- Where the content stops (R45): the data before the closing run and the fewest of the run's accepted ones that make
whole bytes. `data` is newest first. -/
def closeContent (data : List Bool) (accepted : Nat) : Option (List Bool) :=
  let before := data.length - accepted
  let k := (8 - before % 8) % 8
  if k ≤ accepted then some (data.drop (accepted - k)).reverse else none

/-- No 0 has come since the SOF's closing 1: every data bit is one of the run's accepted ones. -/
def Reception.bare (r : Reception) : Bool := r.data.length == r.accepted

/-- The judgement of a frame that has ended (R45). -/
def judgeEnd (r : Reception) : Arrival :=
  if r.bare then .bad .bareEnd
  else
    match closeContent r.data r.accepted with
    | none => .bad .badEnd
    | some bits =>
      match (bitsBytes bits).bind contentFrame with
      | some f => .good f
      | none => .bad .badEnd

/-- The ones in a row that the line has shown at an end (R43, R44): the run of seven, and the SOF's closing 1 when the run
follows it at once. -/
def Reception.endOnes (r : Reception) : Nat := if r.bare then 8 else 7

/-- The bits of the largest content: 4 header bytes, 255 body bytes, 2 CRC bytes (R44). -/
def contentMax : Nat := 261 * 8

/-- One more data bit (R41). Past 261 bytes only ones that may belong to the end sequence are held (R45); a 0 there shows
that the content has grown too long (R44, log 25). -/
def Reception.accept (r : Reception) (b : Bool) (run accepted : Nat) : Receiver × Option Arrival :=
  if b = false ∧ contentMax ≤ r.data.length then (.hunting 0 1, some (.bad .tooLong))
  else (.inFrame ⟨b, run, accepted, b :: r.data⟩, none)

/-- One content bit (R41, R44). R44's list holds at its word: an abort that follows exactly six ones of the end sequence is
the violation of six ones, and one that takes the content past 261 bytes is too long. DEDUCED (log 41). -/
def Reception.bit (r : Reception) (b : Bool) : Receiver × Option Arrival :=
  if r.run = 0 then r.accept b 1 1
  else if b = r.value then
    if r.run < 5 then r.accept b (r.run + 1) (r.accepted + 1)
    else if b = true ∧ r.run = 6 then (.hunting r.endOnes 0, some (judgeEnd r))
    else if b = false ∧ r.run = 9 then (.hunting 0 8, some .aborted)
    else (.inFrame { r with run := r.run + 1 }, none)
  else if r.run < 5 then r.accept b 1 1
  else if r.run = 5 then
    if b = false ∧ contentMax < r.data.length then (.hunting 0 1, some (.bad .tooLong))
    else (.inFrame ⟨b, 1, 0, r.data⟩, none)
  else if b = false then (.hunting 6 1, some (.bad .sixOnes))
  else (.hunting 1 0, some (.bad .sixZeros))

/-- One bit time at the receiver (R43, R44). -/
def Receiver.bit (x : Receiver) (b : Bool) : Receiver × Option Arrival :=
  match x with
  | .hunting ones zeros =>
    if b then
      if zeros = 0 then (.hunting (min 12 (ones + 1)) 0, none)
      else if ones = 12 ∧ zeros = 7 then (.inFrame ⟨false, 0, 0, []⟩, none)
      else (.hunting 1 0, none)
    else (.hunting ones (min 8 (zeros + 1)), none)
  | .inFrame r => r.bit b

/-- The arrivals of a stretch of line (R43 to R45). -/
def Receiver.run (x : Receiver) : List Bool → Receiver × List Arrival
  | [] => (x, [])
  | b :: bs =>
    let y := x.bit b
    let z := y.1.run bs
    (z.1, y.2.toList ++ z.2)

/-- The command that a classification is, `age` ms after the frame's SOF mark. -/
def Arrival.command (age : Nat) : Arrival → Instr
  | .good f => .frameGood f age
  | .bad c => .frameBad c age
  | .aborted => .frameAborted age

/-! ### UART links (R190): contact links and stage ports -/

/-- A character on a UART link: its byte, whether its stop bit read 0, and whether more than 96 bit times, which are 5 ms
on a contact link (R6), passed since the stop bit of the character before it. -/
structure Character where
  byte : Byte
  framing : Bool
  gap : Bool
  deriving DecidableEq, Repr

/-- A byte on a UART link: the start bit 0, bit 0 first up to bit 7, the stop bit 1 (R190). -/
def uartBits (b : Byte) : List Bool := false :: (byteBits b).reverse ++ [true]

/-- Bytes on a UART link, one after the other. -/
def uartLine (bytes : List Byte) : List Bool := bytes.flatMap uartBits

/-- The bit times in 5 ms at 19,200 bit/s (R6). -/
def gapBits : Nat := 96

/-- A UART receiver: between characters it counts the bit times since the last stop bit, up to one more than `gapBits`;
inside one it holds the data bits, newest first. -/
inductive UartReceiver where
  | idle (quiet : Nat)
  | data (gap : Bool) (bits : List Bool)
  deriving DecidableEq, Repr

/-- One bit time at a UART receiver (R190). A 0 between characters is a start bit; the ninth bit after it is the stop bit.
After a stop bit read as 0 the very next 0 is a start bit, without a wait for the line to return to 1: R6 and R190 do not
say. DESIGN CHOICE (log 38). -/
def UartReceiver.bit (x : UartReceiver) (b : Bool) : UartReceiver × Option Character :=
  match x with
  | .idle quiet =>
    if b then (.idle (min (gapBits + 1) (quiet + 1)), none) else (.data (decide (gapBits < quiet)) [], none)
  | .data gap [b7, b6, b5, b4, b3, b2, b1, b0] => (.idle 0, some ⟨bitsByte b7 b6 b5 b4 b3 b2 b1 b0, !b, gap⟩)
  | .data gap bits => (.data gap (b :: bits), none)

/-- The characters of a stretch of a UART link. -/
def UartReceiver.run (x : UartReceiver) : List Bool → UartReceiver × List Character
  | [] => (x, [])
  | b :: bs =>
    let y := x.bit b
    let z := y.1.run bs
    (z.1, y.2.toList ++ z.2)

/-! ### The contact receiver, character by character (R6, R192) -/

/-- The contact receiver: hunting for the start byte, waiting for the length byte, or collecting the rest, newest first,
with `left` bytes to come. -/
inductive ContactReceiver where
  | hunting
  | started
  | collecting (length : Byte) (left : Nat) (bytes : List Byte)
  deriving DecidableEq, Repr

/-- A record as the receiver judges it (R6). -/
inductive RecordArrival where
  | malformed
  | accepted (kind : Byte) (body : List Byte)
  deriving DecidableEq, Repr

/-- The length a DOCK's presence mark calls for (R192). -/
def dockLength (mark : Byte) : Nat := 11 + flagBit (mark.getLsbD 0) 2 + flagBit (mark.getLsbD 1) 2

/-- The length an UPDATE's presence mark calls for (R192). -/
def updateLength (mark : Byte) : Nat := 4 + flagBit (mark.getLsbD 0) 2 + flagBit (mark.getLsbD 1) 2

/-- The kind and the length of a record agree (R6, R192). The length counts the kind byte and the body. -/
def lengthFits (kind : Byte) (body : List Byte) : Bool :=
  if kind = 0x01 then (body.head?).any fun mark => body.length + 1 == dockLength mark
  else if kind = 0x02 then (body.head?).any fun mark => body.length + 1 == updateLength mark
  else if kind = 0x03 then body.length == 4
  else true

/-- The judgement of a record whose last byte has come: `bytes` is the kind, the body and the CRC-8, newest first. -/
def judgeRecord (length : Byte) (bytes : List Byte) : RecordArrival :=
  match bytes with
  | [] => .malformed
  | crc :: rest =>
    match rest.reverse with
    | [] => .malformed
    | kind :: body =>
      if crc = crc8 (length :: kind :: body) ∧ lengthFits kind body = true then .accepted kind body else .malformed

/-- A character while hunting (R6). -/
def huntCharacter (c : Character) : ContactReceiver :=
  if c.framing = false ∧ c.byte = 0xC3 then .started else .hunting

/-- One character at the contact receiver (R6). A record that breaks off is judged when the next character comes and its gap
shows: R6 names no moment for it. DESIGN CHOICE (log 36). A length byte outside its range is used up, be it a start byte too,
and the hunt begins with the next character: R6 lets a byte in the gap or after the bad CRC begin a record and does not speak
of this one. DESIGN CHOICE (log 42). -/
def ContactReceiver.character (x : ContactReceiver) (c : Character) : ContactReceiver × Option RecordArrival :=
  match x with
  | .hunting => (huntCharacter c, none)
  | .started =>
    if c.gap then (huntCharacter c, some .malformed)
    else if c.framing then (.hunting, some .malformed)
    else if 1 ≤ c.byte.toNat ∧ c.byte.toNat ≤ 32 then (.collecting c.byte (c.byte.toNat + 1) [], none)
    else (.hunting, some .malformed)
  | .collecting length left bytes =>
    if c.gap then (huntCharacter c, some .malformed)
    else if c.framing then (.hunting, some .malformed)
    else if left ≤ 1 then (.hunting, some (judgeRecord length (c.byte :: bytes)))
    else (.collecting length (left - 1) (c.byte :: bytes), none)

/-- The records of a stretch of characters (R6). -/
def ContactReceiver.run (x : ContactReceiver) : List Character → ContactReceiver × List RecordArrival
  | [] => (x, [])
  | c :: cs =>
    let y := x.character c
    let z := y.1.run cs
    (z.1, y.2.toList ++ z.2)

/-- A two-byte field of a record. -/
def word16 (hi lo : Byte) : Word16 := BitVec.ofNat 16 (be16 hi lo)

/-- The fields of a DOCK body that passed R6 (R192). -/
def parseDock : List Byte → Option DockRecord
  | mark :: v3 :: v2 :: v1 :: v0 :: cls :: e1 :: e0 :: p1 :: p0 :: rest =>
    let vehicle : BitVec 32 := BitVec.ofNat 32 (be16 v3 v2 * 65536 + be16 v1 v0)
    match mark.getLsbD 0, mark.getLsbD 1, rest with
    | false, false, [] => some ⟨vehicle, cls, word16 e1 e0, word16 p1 p0, none, none⟩
    | true, false, [d1, d0] => some ⟨vehicle, cls, word16 e1 e0, word16 p1 p0, some (word16 d1 d0), none⟩
    | false, true, [m1, m0] => some ⟨vehicle, cls, word16 e1 e0, word16 p1 p0, none, some (word16 m1 m0)⟩
    | true, true, [d1, d0, m1, m0] =>
      some ⟨vehicle, cls, word16 e1 e0, word16 p1 p0, some (word16 d1 d0), some (word16 m1 m0)⟩
    | _, _, _ => none
  | _ => none

/-- The fields of an UPDATE body that passed R6 (R192). -/
def parseUpdate : List Byte → Option UpdateRecord
  | mark :: e1 :: e0 :: rest =>
    match mark.getLsbD 0, mark.getLsbD 1, rest with
    | false, false, [] => some ⟨word16 e1 e0, none, none⟩
    | true, false, [d1, d0] => some ⟨word16 e1 e0, some (word16 d1 d0), none⟩
    | false, true, [p1, p0] => some ⟨word16 e1 e0, none, some (word16 p1 p0)⟩
    | true, true, [d1, d0, p1, p0] => some ⟨word16 e1 e0, some (word16 d1 d0), some (word16 p1 p0)⟩
    | _, _, _ => none
  | _ => none

/-- The command that a record on port `p` is (R6, R7, R192) outside CONFIG_FAIL. -/
def RecordArrival.command (p : PortId) : RecordArrival → Instr
  | .malformed => .malformedRecord p
  | .accepted kind body =>
    if kind = 0x01 then
      match parseDock body with
      | some r => .dock p r
      | none => .malformedRecord p
    else if kind = 0x02 then
      match parseUpdate body with
      | some r => .update p r
      | none => .malformedRecord p
    else if kind = 0x03 then
      match body with
      | [v3, v2, v1, v0] => .depart p (BitVec.ofNat 32 (be16 v3 v2 * 65536 + be16 v1 v0))
      | _ => .malformedRecord p
    else .unknownKindRecord p kind

/-- A record on the link as its characters' bytes: start byte, length, kind, body, CRC-8 (R192). -/
def recordBytes (kind : Byte) (body : List Byte) : List Byte :=
  let covered := loByte (body.length + 1) :: kind :: body
  0xC3 :: covered ++ [crc8 covered]

/-- A pad reply with its CRC-8 over length, kind and body (R192). -/
def Reply.message (r : Reply) : List Byte := r.bytes ++ [crc8 (r.bytes.drop 1)]

/-! ### Stage messages (R192) -/

/-- The setpoint message of a tick (R192). -/
def setpointMessage (setpoint : Nat) : List Byte :=
  [0x5A, hiByte setpoint, loByte setpoint, crc8 [hiByte setpoint, loByte setpoint]]

/-- The figures of a well-formed 7-byte status message (R192). -/
def parseAnswer : List Byte → Option StageAnswer
  | [start, m1, m0, v1, v0, flags, crc] =>
    if start = 0x6B ∧ crc = crc8 [m1, m0, v1, v0, flags] then
      some ⟨word16 m1 m0, word16 v1 v0, flags.getLsbD 0⟩
    else none
  | _ => none

/-- The answer in the bytes that a stage sent within 30 ms of the send, each with its framing error: the receiver looks
for 0x6B afresh at each send (R192). A 0x6B whose own character has a framing error begins no answer, and the search goes
on past it: R192 does not say. DESIGN CHOICE (log 37). -/
def stageAnswer (bytes : List (Byte × Bool)) : Option StageAnswer :=
  let message := (bytes.dropWhile fun x => x.1 != 0x6B || x.2).take 7
  if message.any Prod.snd then none else parseAnswer (message.map Prod.fst)

/-- The bit times in the 30 ms of the answer window at 57,600 bit/s (R155, R192). -/
def answerBits : Nat := 1728

/-- The answer in the bits that a stage port shows from a send on (R155, R190, R192). The receiver is idle at the send: of a
character that is under way then, the bits that remain are read as new ones, their first 0 as a start bit. R192 does not say
what becomes of it. DESIGN CHOICE (log 43). -/
def answerOnLine (bits : List Bool) : Option StageAnswer :=
  stageAnswer (((UartReceiver.idle 0).run (bits.take answerBits)).2.map fun c => (c.byte, c.framing))

/-! ### The image read (R193) -/

/-- A step of a read attempt on the I2C bus. -/
inductive BusStep where
  | start
  /-- a byte the part sends; the memory acknowledges it -/
  | send (b : Byte)
  /-- a byte the part reads, and whether the part acknowledges it -/
  | read (acknowledge : Bool)
  | stop
  deriving DecidableEq, Repr

/-- What the part puts on SDA in the nine clock pulses of a byte, most significant bit first (R190): true leaves the line
released. It releases the line for the memory's acknowledge, and for the bits it reads. -/
def BusStep.drives : BusStep → List Bool
  | .send b => byteBits b ++ [true]
  | .read acknowledge => List.replicate 8 true ++ [!acknowledge]
  | .start | .stop => []

/-- One attempt: address with the write bit, offset 0, repeated start, address with the read bit, 128 bytes, the last
left unacknowledged, stop (R193). The device address is 0x54. -/
def readAttempt : List BusStep :=
  [.start, .send 0xA8, .send 0x00, .start, .send 0xA9] ++ List.replicate 127 (.read true) ++ [.read false, .stop]

/-- How a read attempt ends (R185). -/
inductive ReadOutcome where
  | failed (cause : ReadFailure)
  | image (bytes : List Byte)
  deriving DecidableEq, Repr

/-- The attempt's steps against the bits that the memory puts on SDA within the 30 ms: an acknowledge bit for each byte
sent, low when it acknowledges, and the eight bits of each byte read, most significant first (R190, R193). `bytes` is what
has been read, newest first. A missing acknowledge ends the attempt; when the bits run out the time has (R185). -/
def runAttempt : List BusStep → List Bool → List Byte → ReadOutcome
  | [], _, bytes => .image bytes.reverse
  | .start :: steps, sda, bytes => runAttempt steps sda bytes
  | .stop :: steps, sda, bytes => runAttempt steps sda bytes
  | .send _ :: steps, notAcknowledged :: sda, bytes =>
    if notAcknowledged then .failed .noAcknowledge else runAttempt steps sda bytes
  | .read _ :: steps, b7 :: b6 :: b5 :: b4 :: b3 :: b2 :: b1 :: b0 :: sda, bytes =>
    runAttempt steps sda (bitsByte b7 b6 b5 b4 b3 b2 b1 b0 :: bytes)
  | _ :: _, _, _ => .failed .timedOut

/-- The outcome of one attempt on what the memory puts on SDA (R185, R193). -/
def imageRead (sda : List Bool) : ReadOutcome := runAttempt readAttempt sda []

/-- The command that the end of an attempt is, while the presence inputs show `presence`. -/
def ReadOutcome.command (presence : BitVec 4) : ReadOutcome → Instr
  | .failed cause => .configReadAttemptFail cause
  | .image bytes => .configReadComplete bytes presence

end Sys2Proof.Machine
end

