-- ==== Sys2Proof/Machine/LineControl.lean ====
section
/-! DEFINITION. Machine/LineControl.lean: the classified frames at the Line Receiver (chapter 3) and their delivery into
the Receive Queue (R64 to R66). -/

namespace Sys2Proof.Machine

/-- The own round phase and round count `age` ms ago (R43). The round before the present one had length
`round.prevLength` (log 14). -/
def Round.stampAt (r : Round) (age : Nat) : Stamp :=
  if age ≤ r.phase then ⟨r.phase - age, r.count⟩ else ⟨r.prevLength - (age - r.phase), (r.count + 255) % 256⟩

/-- The own driver is released (R46): the receiver classifies what it hears. -/
def State.hearsLine (s : State) : Bool := s.boot == .running && s.tx.onLine.isNone

/-- A frame is classified: its SOF stamp is noted (R43) and the quiet count is the run of ones the line then shows
(R44, R77). -/
def State.arrival (s : State) (age quiet : Nat) : State :=
  { s with line := { s.line with stamp := s.round.stampAt age }
           tx := { s.tx with quiet := quiet } }

/-- DUPLICATE_ID is latched (R99). -/
def State.latchDuplicate (s : State) : State := State.judgeMode { s with duplicateId := true }

/-- IN_STEP entry (R54): counts cleared, ANNOUNCE queued, ONCE alignment re-armed, the listen span started, LINE_IN_STEP
reported. -/
def State.inStepEntry (s : State) : State :=
  let s1 := { s with
    line := { s.line with acq := .inStep, trial := 0, errors := 0, silence := 0, span := some 0 }
    round := { s.round with once := .aligning } }
  s1.queueAnnounce.reportHealth .lineInStep true

/-- A delivery into the Receive Queue (R64, R65). -/
def State.enqueue (s : State) (f : Frame) (stamp : Stamp) : State :=
  if s.line.queue.length < Config.receiveDepth then
    { s with line := { s.line with queue := s.line.queue ++ [⟨f, false, stamp⟩] } }
  else
    { s with line := { s.line with
        queue := s.line.queue.dropLast ++ [⟨f, true, stamp⟩], overruns := sat255 s.line.overruns } }

/-- Acquisition at a qualifying frame (R49 to R51); `own` marks a frame that carries the own id. -/
def State.acquire (s : State) (f : Frame) (own : Bool) : State :=
  match s.line.acq with
  | .hunt => { s with line := { s.line with acq := .trial, trial := 1 } }
  | .trial =>
    if 4 ≤ s.line.trial + 1 then s.inStepEntry
    else { s with line := { s.line with trial := s.line.trial + 1 } }
  | .inStep =>
    let s1 := { s with line := { s.line with errors := s.line.errors - 1 } }
    if own then s1 else s1.enqueue f s.line.stamp

/-- A good frame at the filter (R48): foreign, or qualifying with the heard mark set (R52), an own-id frame reported. -/
def State.goodFrame (s : State) (f : Frame) : State :=
  if f.feeder.toNat ≠ s.cfg.feederId ∧ f.feeder ≠ anyFeeder then
    { s with line := { s.line with
        foreign := sat255 s.line.foreign
        errors := if s.line.acq = .inStep then s.line.errors - 1 else s.line.errors } }
  else
    let own := f.sender.toNat == s.nodeId.val
    let s1 := if 1 < s.cfg.nCfg then { s with line := { s.line with heard := true } } else s
    let s2 := if own then s1.latchDuplicate else s1
    s2.acquire f own

/-- FRAME_GOOD (R45, R48 to R51). -/
def execFrameGood (f : Frame) (age : Nat) (s : State) : Host.Outcome State Fault Refusal :=
  if (Instr.frameGood f age).wellFormed = false then .fault .illFormed
  else if s.hearsLine then .next ((s.arrival age 7).goodFrame f).finish
  else .next s

/-- A bad frame at the acquisition state (R50, R51). -/
def State.badFrame (s : State) : State :=
  let s1 := { s with line := { s.line with bad := sat255 s.line.bad } }
  match s.line.acq with
  | .hunt => s1
  | .trial => s1.huntEntry
  | .inStep =>
    let s2 := { s1 with line := { s1.line with errors := min 16 (s.line.errors + 1) } }
    if 16 ≤ s.line.errors + 1 then s2.huntEntry else s2

/-- The run of ones the line shows when a bad frame is classified (R44). A frame that is too long is judged at a 0 and shows
none. DEDUCED (log 25). -/
def BadCause.quiet : BadCause → Nat
  | .sixOnes => 0
  | .sixZeros => 1
  | .tooLong => 0
  | .badEnd => 7
  | .bareEnd => 8

/-- The run of ones the line shows when a frame is classified (R44): it counts toward the 12 quiet bit times. -/
def Arrival.quiet : Arrival → Nat
  | .good _ => 7
  | .bad c => BadCause.quiet c
  | .aborted => 0

/-- FRAME_BAD (R44, R45, R50, R51). -/
def execFrameBad (cause : BadCause) (age : Nat) (s : State) : Host.Outcome State Fault Refusal :=
  if (Instr.frameBad cause age).wellFormed = false then .fault .illFormed
  else if s.hearsLine then .next (s.arrival age (BadCause.quiet cause)).badFrame.finish
  else .next s

/-- FRAME_ABORTED (R44, R47): counted, nothing else. -/
def execFrameAborted (age : Nat) (s : State) : Host.Outcome State Fault Refusal :=
  if (Instr.frameAborted age).wellFormed = false then .fault .illFormed
  else if s.hearsLine then
    let s1 := s.arrival age 0
    .next { s1 with line := { s1.line with aborted := sat255 s1.line.aborted } }
  else .next s

end Sys2Proof.Machine
end

