-- ==== Sys2Proof/Machine/RoundControl.lean ====
section
/-! DEFINITION. Machine/RoundControl.lean: the own round boundary (chapter 7) and each block's work at it (R106). The
Round Timer and the Peer Table come first, then the Curtail Monitor, the Line Receiver and the Fault Supervisor, and the
regular compute last (R91, R106; log 20). -/

namespace Sys2Proof.Machine

/-! ### Round Timer -/

/-- The phase errors handed over at a boundary: those of the entries that hold one and are LIVE (R91, R109). -/
def State.handedErrors (s : State) : List Int :=
  (List.finRange 16).filterMap fun id => if s.peerState id = .live then s.peers[id].phaseErr else none

/-- The mean of the errors, truncated toward zero (R109). -/
def meanError (es : List Int) : Option Int := if es = [] then none else some (es.sum.tdiv es.length)

/-- The correction of CONTINUOUS mode: a quarter of the mean, truncated toward zero, limited to 25 (R110). -/
def continuousAdj (m : Int) : Int := max (-25) (min 25 (m.tdiv 4))

/-- The length of the round that begins at a boundary with mean `m` (R110, R111, R112). -/
def nextLength (align : AlignMode) (window : Nat) (once : OnceState) (m : Option Int) : Nat :=
  match align, m with
  | .continuous, some e => if window < e.natAbs then (500 - continuousAdj e).toNat else 500
  | .once, some e => if once = .aligning ∧ window < e.natAbs then (500 - e).toNat else 500
  | _, _ => 500

/-- The ONCE state after a boundary: in ONCE mode the first valid mean ends ALIGNING (R111). In the other modes, where R111
keeps the state without effect, no boundary changes it. DESIGN CHOICE (log 40). -/
def nextOnce (align : AlignMode) (once : OnceState) (m : Option Int) : OnceState :=
  if align = .once ∧ m.isSome = true then .monitoring else once

/-- PHASE_OUT of a last valid mean (R114). -/
def phaseOutOf (window : Nat) (lastMean : Option Int) : Bool := lastMean.any fun m => decide (window < m.natAbs)

/-- The Round Timer at a boundary with the errors `es` handed over (R106, R109 to R114). -/
def Round.boundary (r : Round) (align : AlignMode) (window : Nat) (es : List Int) : Round :=
  let m := meanError es
  let last := m.or r.lastMean
  { phase := 0
    length := nextLength align window r.once m
    count := (r.count + 1) % 256
    mean := m
    lastMean := last
    once := nextOnce align r.once m
    phaseOut := phaseOutOf window last
    prevLength := r.length }

/-- The Round Timer's work: the LIVE phase errors are handed over, every error is made absent, PHASE_OUT is reported. -/
def State.roundBoundary (s : State) : State :=
  let r := s.round.boundary s.cfg.align s.cfg.window s.handedErrors
  State.reportHealth (State.dropPhaseErrors { s with round := r }) .phaseOut r.phaseOut

/-- The ageing of the Peer Table: at once, or at the start of the regular compute that follows the one in flight (R91). -/
def State.peerBoundary (s : State) : State :=
  match s.engine.inFlight with
  | some _ => { s with engine := { s.engine with agePending := true } }
  | none => s.agePeers

/-! ### Curtail Monitor (R146, R148, R149) -/

/-- An entry of the Curtail Set one boundary older; at age 3 it is removed (R146). -/
def CurtailEntry.older (e : CurtailEntry) : Option CurtailEntry :=
  if 3 ≤ e.age + 1 then none else some { e with age := e.age + 1 }

/-- The Curtail Set one boundary older (R146). -/
def CurtailMonitor.ageSet (m : CurtailMonitor) : CurtailMonitor :=
  { m with set := Vector.ofFn fun id : Fin 16 => m.set[id].bind CurtailEntry.older }

/-- A step of the restore ramp (R148). -/
def CurtailMonitor.ramp (m : CurtailMonitor) (lCfg : Nat) : CurtailMonitor :=
  if m.ceiling < m.target then { m with ceiling := min (m.ceiling + lCfg / 16) m.target } else m

/-- The Curtail Monitor's work in the order of R149. -/
def State.curtailBoundary (s : State) : State :=
  let s1 := State.retarget { s with curtail := s.curtail.ageSet }
  let s2 := State.judgeCeiling { s1 with curtail := s1.curtail.ramp s.cfg.lCfg }
  if s.curtail.pin then s2.placeCurtail true else s2

/-! ### Line Receiver (R52, R55, R56) -/

/-- The ANNOUNCE interval of an acquisition state (R56). -/
def announceInterval (a : Acq) : Nat := if a = .inStep then 16 else 4

/-- The ANNOUNCE count at a boundary (R56). -/
def State.announceBoundary (s : State) : State :=
  if announceInterval s.line.acq ≤ s.line.announce + 1 then s.queueAnnounce
  else { s with line := { s.line with announce := s.line.announce + 1 } }

/-- The silence count after a boundary (R52). -/
def Line.silenceNext (l : Line) : Nat := if l.heard then 0 else min 4 (l.silence + 1)

/-- The silence rule at a boundary (R52). -/
def State.silenceBoundary (s : State) : State :=
  if 1 < s.cfg.nCfg ∧ s.line.acq ≠ .hunt then
    let n := s.line.silenceNext
    let s1 := { s with line := { s.line with silence := n, heard := false } }
    if n = 4 then s1.huntEntry else s1
  else s

/-- The listen span at a boundary (R55). -/
def State.spanBoundary (s : State) : State :=
  State.judgeMode { s with line := { s.line with span := s.line.span.map fun n => min 2 (n + 1) } }

/-- The Line Receiver's work. When the silence rule drops an IN_STEP line at the boundary, the manual leaves open whether
the ANNOUNCE count is raised before the HUNT entry sets it to 0: a free value (log 8). -/
def State.lineBoundary (s : State) : State :=
  let drops := s.line.acq == .inStep && decide (1 < s.cfg.nCfg) && s.line.silenceNext == 4
  if drops then
    let s1 := { s with choice := s.choice + 1 }
    if Config.announceBeforeHunt s.choice then s1.announceBoundary.silenceBoundary.spanBoundary
    else s1.silenceBoundary.spanBoundary.announceBoundary
  else s.silenceBoundary.spanBoundary.announceBoundary

/-! ### Fault Supervisor (R181, R182) -/

/-- The Fault Supervisor's work: a latch-STATUS that failed to send is placed again, and every 16th boundary a periodic
STATUS is placed unless a latch-STATUS is outstanding. -/
def State.supervisorBoundary (s : State) : State :=
  let s1 := if s.sup.latched ∧ s.sup.outstanding = false then s.placeLatchStatus else s
  if 16 ≤ s1.sup.periodic + 1 then
    let s2 := { s1 with sup := { s1.sup with periodic := 0 } }
    if s2.sup.outstanding then s2 else s2.placePeriodicStatus
  else { s1 with sup := { s1.sup with periodic := s1.sup.periodic + 1 } }

/-- ROUND_BOUNDARY (R106). -/
def execRoundBoundary (s : State) : Host.Outcome State Fault Refusal :=
  if s.boot = .running then
    .next (s.roundBoundary.peerBoundary.curtailBoundary.lineBoundary.settleHealth.supervisorBoundary.engineBoundary.judgePins)
  else .next s

end Sys2Proof.Machine
end

