-- ==== Sys2Proof/Machine/StageControl.lean ====
section
/-! DEFINITION. Machine/StageControl.lean: the stage exchange and the delivery monitors (chapter 10), the energy accounting
of a status arrival (R23 to R25) and the retry timer's expiry (R171). -/

namespace Sys2Proof.Machine

/-! ### The send (R155, R157, R158, R17) -/

/-- A tick setpoint that NO_DRAW watches (R162). -/
def steadyEligible (floor setpoint : Nat) : Bool := max floor 50 ≤ setpoint

/-- The send of a tick with setpoint `v` on the stage's record, under the pad's floor (R155, R157, R158, R162, R163). -/
def Stage.send (g : Stage) (floor v : Nat) : Stage :=
  let restart := v != g.tick || !steadyEligible floor v
  { g with
    setpoint := v
    tick := v
    prev := g.tick
    enable := decide (0 < v)
    ndSteady := if restart then 0 else g.ndSteady
    ndLow := if restart then 0 else g.ndLow
    tpCount := if v = g.tick then g.tpCount else 0
    awaiting := some 0
    sent := some (setpointMessage v) }

/-- The send of a tick at a port: an eligible pad is sent its command and is CHARGING or WAITING by it (R17, R157). -/
def Port.send (x : Port) : Port :=
  if x.session.state.eligible then
    { x with stage := x.stage.send x.session.floor x.alloc.command
             session := { x.session with state := if 0 < x.alloc.command then .charging else .waiting } }
  else { x with stage := x.stage.send x.session.floor 0 }

/-- MEASURE_TICK_SEND (R155, R157). -/
def execMeasureTickSend (p : PortId) (s : State) : Host.Outcome State Fault Refusal :=
  if s.serves p then .next (s.updPort p Port.send) else .next s

/-! ### The monitors (R160 to R165) -/

/-- What the monitors have made of a tick so far: the stage's record, and the conditions raised and cleared. -/
structure Verdict where
  stage : Stage
  raises : List Cond
  clears : List Cond
  deriving DecidableEq, Repr

/-- The verdict with a condition raised. -/
def Verdict.raise (v : Verdict) (c : Cond) : Verdict := { v with raises := v.raises ++ [c] }

/-- The verdict with a condition cleared. -/
def Verdict.clear (v : Verdict) (c : Cond) : Verdict := { v with clears := v.clears ++ [c] }

/-- The OVER_DRAW threshold of a tick setpoint (R161). -/
def overDrawThreshold (s : Nat) : Nat := if 0 < s then s + max (s / 16) 20 else 20

/-- The OVER_DRAW monitor on an answered tick with measured power `m` (R161). -/
def Verdict.overDraw (v : Verdict) (m : Nat) : Verdict :=
  let g := v.stage
  if overDrawThreshold g.tick < m then
    let n := min 3 (g.odCount + 1)
    if n = 3 ∧ g.odPresent = false then
      Verdict.raise { v with stage := { g with odCount := n, odPresent := true } } .overDraw
    else { v with stage := { g with odCount := n } }
  else
    let w := { v with stage := { g with odCount := 0, odPresent := false } }
    if g.odPresent then w.clear .overDraw else w

/-- The NO_DRAW monitor on an answered tick (R162), under the pad's floor. -/
def Verdict.noDraw (v : Verdict) (floor m : Nat) : Verdict :=
  let g := v.stage
  let watched := steadyEligible floor g.tick
  let low := decide (m < g.tick / 32)
  let w : Verdict :=
    if watched then
      if g.ndSteady < 20 then { v with stage := { g with ndSteady := g.ndSteady + 1 } }
      else if low then
        let n := min 50 (g.ndLow + 1)
        if n = 50 ∧ g.ndPresent = false then
          Verdict.raise { v with stage := { g with ndLow := n, ndPresent := true } } .noDraw
        else { v with stage := { g with ndLow := n } }
      else { v with stage := { g with ndLow := 0 } }
    else v
  if g.ndPresent ∧ (watched = false ∨ low = false) then
    Verdict.clear { w with stage := { w.stage with ndPresent := false } } .noDraw
  else w

/-- A tick below seven eighths of a setpoint above 0 (R163). -/
def tapers (s m : Nat) : Bool := decide (0 < s) && decide (m < s * 7 / 8)

/-- The tick makes a TAPER detection (R163). -/
def Stage.detects (g : Stage) (m : Nat) : Bool := tapers g.tick m && decide (20 ≤ g.tpCount + 1)

/-- The TAPER monitor on an answered tick (R163). -/
def Verdict.taper (v : Verdict) (m : Nat) : Verdict :=
  let g := v.stage
  if g.detects m then Verdict.raise { v with stage := { g with tpCount := 0, tpPresent := true } } .taper
  else if tapers g.tick m then { v with stage := { g with tpCount := g.tpCount + 1 } }
  else
    let w := { v with stage := { g with tpCount := 0, tpPresent := false } }
    if g.tpPresent then w.clear .taper else w

/-- STAGE_FAULT is raised when a count has reached its limit and the condition is not present (R164). -/
def Verdict.stageRaise (v : Verdict) : Verdict :=
  if (2 ≤ v.stage.sfFlag ∨ 3 ≤ v.stage.sfSilence) ∧ v.stage.sfPresent = false then
    Verdict.raise { v with stage := { v.stage with sfPresent := true } } .stageFault
  else v

/-- The STAGE_FAULT monitor on an answered tick (R164). -/
def Verdict.stageAnswered (v : Verdict) (flag : Bool) : Verdict :=
  let g := v.stage
  if flag then
    Verdict.stageRaise { v with stage := { g with sfFlag := min 2 (g.sfFlag + 1), sfSilence := 0, sfNormal := 0 } }
  else if g.sfPresent then
    if 2 ≤ g.sfNormal + 1 then
      Verdict.clear
        { v with stage := { g with sfFlag := 0, sfSilence := 0, sfNormal := 0, sfPresent := false } } .stageFault
    else { v with stage := { g with sfFlag := 0, sfSilence := 0, sfNormal := g.sfNormal + 1 } }
  else { v with stage := { g with sfFlag := 0, sfSilence := 0 } }

/-- The STAGE_FAULT monitor on a tick without answer (R164). -/
def Verdict.stageSilent (v : Verdict) : Verdict :=
  Verdict.stageRaise
    { v with stage := { v.stage with sfSilence := min 3 (v.stage.sfSilence + 1), sfNormal := 0 } }

/-- The BUS_LOW monitor on an answered tick with bus voltage `u` (R165). -/
def Verdict.busLow (v : Verdict) (vLow u : Nat) : Verdict :=
  if v.stage.busLow then
    if vLow + 10 ≤ u then Verdict.clear { v with stage := { v.stage with busLow := false } } .busLow else v
  else if u < vLow then Verdict.raise { v with stage := { v.stage with busLow := true } } .busLow
  else v

/-- The BUS_HIGH monitor on an answered tick with bus voltage `u` (R165). -/
def Verdict.busHigh (v : Verdict) (vHigh u : Nat) : Verdict :=
  if v.stage.busHigh then
    if u + 10 ≤ vHigh then Verdict.clear { v with stage := { v.stage with busHigh := false } } .busHigh else v
  else if vHigh < u then Verdict.raise { v with stage := { v.stage with busHigh := true } } .busHigh
  else v

/-- The judgement of an answered tick by the six monitors (R160 to R165): the vehicle-origin ones only with an admitted
session. -/
def judgeTick (cfg : Configuration) (admitted : Bool) (floor m u : Nat) (flag : Bool) (g : Stage) : Verdict :=
  let v0 : Verdict := ⟨g, [], []⟩
  let v1 := if admitted then ((v0.overDraw m).noDraw floor m).taper m else v0
  ((v1.stageAnswered flag).busLow cfg.vLow u).busHigh cfg.vHigh u

/-! ### Accounting and the taper cap (R23 to R25, R36) -/

/-- A tick's measured power taken into the accounting (R23, R24). -/
def Session.account (x : Session) (m : Nat) : Session :=
  if x.state.admitted ∧ 0 < x.energy then
    let a := x.acc + m
    if Config.euTicks ≤ a then
      let y := Session.judge { x with acc := a - Config.euTicks, energy := x.energy - 1 }
      if y.energy = 0 ∧ y.state.eligible then { y with state := .complete } else y
    else { x with acc := a }
  else x

/-- A TAPER detection with measured value `m` reaching the session (R36). -/
def Session.taperCap (x : Session) (m : Nat) : Session :=
  if x.state.admitted then
    let c := m + m / 16
    { x with cap := match x.cap with
        | none => some c
        | some old => if c < old then some c else some old }
  else x

/-- A tick's answer as the Stage Controller takes it in (R156). -/
def takenPower (a : StageAnswer) : Nat := min a.measured.toNat Config.maxMeasured

/-- A tick's bus voltage as the Stage Controller takes it in (R156). -/
def takenVoltage (a : StageAnswer) : Nat := min a.voltage.toNat Config.maxVoltage

/-- The measured power of an answer at the port: latest measured, accounting, completion (R23, R25, R156). -/
def State.account (s : State) (p : PortId) (m : Nat) : State :=
  let s1 := s.updPort p fun x =>
    { x with stage := { x.stage with latest := m, awaiting := none }, session := x.session.account m }
  if s.ports[p].session.state.eligible ∧ s1.ports[p].session.state.eligible = false then
    (s1.updPort p Port.stopEligible).markStopped p
  else s1

/-- The monitors' judgement of an answered tick, the taper cap, and the reports to the Fault Supervisor (R160, R163). -/
def State.monitor (s : State) (p : PortId) (m u : Nat) (flag : Bool) : State :=
  let x := s.ports[p]
  let admitted := x.session.state.admitted
  let v := judgeTick s.cfg admitted x.session.floor m u flag x.stage
  let s1 := s.updPort p fun y =>
    { y with stage := v.stage
             session := if admitted && x.stage.detects m then y.session.taperCap m else y.session }
  s1.deliver p v.raises v.clears

/-- STATUS_ARRIVAL (R156): an answer to a tick whose answer is awaited; later bytes are discarded (R192). -/
def execStatusArrival (p : PortId) (a : StageAnswer) (s : State) : Host.Outcome State Fault Refusal :=
  if s.serves p ∧ s.ports[p].stage.awaiting.isSome = true then
    .next ((s.account p (takenPower a)).monitor p (takenPower a) (takenVoltage a) a.fault).finish
  else .next s

/-- NO_ANSWER (R156, R164): the tick has no data. -/
def execNoAnswer (p : PortId) (s : State) : Host.Outcome State Fault Refusal :=
  if s.serves p ∧ s.ports[p].stage.awaiting.isSome = true then
    let v := Verdict.stageSilent ⟨s.ports[p].stage, [], []⟩
    let s1 := s.updPort p fun x => { x with stage := { v.stage with awaiting := none } }
    .next (s1.deliver p v.raises v.clears).finish
  else .next s

/-- RETRY_TIMER_EXPIRY (R171, R176): the timer expires when its remaining time is 0. A stopped timer never expires, nor does
one that a raise taken first has set again. -/
def execRetryTimerExpiry (p : PortId) (s : State) : Host.Outcome State Fault Refusal :=
  if s.serves p ∧ s.ports[p].fault.timer = some 0 then .next (s.updFault p PadFault.expire).finish else .next s

end Sys2Proof.Machine
end

