-- ==== Sys2Proof/Machine/Startup.lean ====
section
/-! DEFINITION. Machine/Startup.lean: reset, the configuration read and start-up completion (chapter 12). -/

namespace Sys2Proof.Machine

/-- RESET (R184): every block at its reset values, whatever was in flight; the queue of commands and the pins with the RESET
filter are the surroundings' and stay, and the count of free values goes on (log 27). The part's own clock hands the command
over when the filter or the supply calls for it (`Pins.resets`); as power-on it may come at any moment. -/
def execReset (s : State) : Host.Outcome State Fault Refusal :=
  .next (State.reset.under s)

/-- Attempt `n` falls due (R185): it begins at once, or waits while the bus is held low. -/
def State.attempt (s : State) (n : Nat) : State :=
  { s with boot := if s.pins.busLow then .due n 0 else .reading n 0 }

/-- Nothing holds the part in reset (R184): RESET is high at the mark and was high from the start of the millisecond, and the
supply is at 2.85 V or above. For how long RESET has to have held high R184 does not say. DESIGN CHOICE (log 44). -/
def State.released (s : State) : Bool :=
  s.resetHold == 0 && s.pins.resetLead == 0 && decide (Config.supplyMin ≤ s.pins.supply)

/-- STARTUP_BEGIN (R184, R185): once nothing holds the part in reset, the straps are read once and the first read attempt
falls due. -/
def execStartupBegin (straps : BitVec 4) (s : State) : Host.Outcome State Fault Refusal :=
  if s.boot = .held ∧ s.released = true then .next (State.attempt { s with nodeId := ⟨straps.toNat, straps.isLt⟩ } 1) else .next s

/-- The attempt that a failure of the given cause ends (R185): the one that is due, when the bus stays low; the one that has
begun, for the other causes. -/
def Boot.failing : Boot → ReadFailure → Option Nat
  | .due n _, .busHeldLow => some n
  | .reading n _, .noAcknowledge | .reading n _, .timedOut => some n
  | _, _ => none

/-- CONFIG_READ_ATTEMPT_FAIL (R185, R189): the fourth failure enters CONFIG_FAIL. -/
def execConfigReadAttemptFail (cause : ReadFailure) (s : State) : Host.Outcome State Fault Refusal :=
  match s.boot.failing cause with
  | some n =>
    if Config.readAttempts ≤ n then .next { s with boot := .configFail } else .next { s with boot := .waiting n 0 }
  | none => .next s

/-- CONFIG_READ_RETRY (R185): a new attempt from offset 0 falls due. -/
def execConfigReadRetry (s : State) : Host.Outcome State Fault Refusal :=
  match s.boot with
  | .waiting n _ => .next (s.attempt (n + 1))
  | _ => .next s

/-- The checks of R186 on the image as read. -/
def imageGood (image : List Byte) (nodeId : NodeId) : Bool :=
  imageByte image 0 == 0x54 && imageByte image 1 == 0xC4
    && crcBytes (crc16 (image.take 126)) == [imageByte image 126, imageByte image 127]
    && imageByte image 2 != 0xFF
    && decide (1 ≤ (imageByte image 3).toNat) && decide ((imageByte image 3).toNat ≤ 16)
    && portMapGood image
    && decide (nodeId.val < (imageByte image 3).toNat)

/-- The value loaded into the backoff generator (R83). -/
def backoffSeed (image : List Byte) (nodeId : NodeId) : BitVec 16 :=
  let x := BitVec.ofNat 16 (imageWord image 126) ^^^ BitVec.ofNat 16 nodeId.val
  if x = 0 then 1 else x

/-- The presence sample of an enabled port at start-up completion (R3). -/
def Port.sample (x : Port) (asserted : Bool) : Port :=
  { x with level := asserted
           session := { x.session with state := if asserted then .arrived else .vacant } }

/-- Start-up completion (R188): every block begins from its reset values under the configuration, the presence inputs,
which show `presence`, are sampled, and FAULT is judged. -/
def State.complete (s : State) (image : List Byte) (presence : BitVec 4) : State :=
  State.judgePins
    (((State.fresh .running s.nodeId (clampImage image) (backoffSeed image s.nodeId)).under
        { s with pins := { s.pins with presence := presence } }).updEnabled fun p x => x.sample (presence.getLsbD p.val))

/-- CONFIG_READ_COMPLETE (R186 to R189): `image` is the bytes read, `presence` the levels that the presence inputs of
ports 0-3 show. -/
def execConfigReadComplete (image : List Byte) (presence : BitVec 4) (s : State) :
    Host.Outcome State Fault Refusal :=
  if (Instr.configReadComplete image presence).wellFormed = false then .fault .illFormed
  else
    match s.boot with
    | .reading _ _ =>
      if imageGood image s.nodeId then .next (s.complete image presence)
      else .next { s with boot := .configFail }
    | _ => .next s

end Sys2Proof.Machine
end

