-- ==== Sys2Proof/Machine/Transmit.lean ====
section
/-! DEFINITION. Machine/Transmit.lean: attempts, completions, collisions and backoff at the Notice Transmitter
(chapter 5), and what the owners do at the events of R85. -/

namespace Sys2Proof.Machine

/-! ### Starting (R77, R78) -/

/-- The quiet count after a run of line samples (R77). -/
def Transmitter.sample (t : Transmitter) (run : LineRun) : Transmitter :=
  { t with quiet := min Config.quietMax (if run.zero then run.ones else t.quiet + run.ones) }

/-- The quiet bit times that the next start calls for (R78). -/
def Transmitter.required (t : Transmitter) : Nat := 12 + 32 * t.backoff

/-- Some notice is waiting (R78). -/
def Transmitter.waiting (t : Transmitter) : Bool :=
  !t.urgent.isEmpty || t.claim.isSome || t.status.isSome || t.announce.isSome

/-- The attempt of the highest-place notice starts (R76, R78): the pending backoff becomes 0, a ROUTINE notice leaves its
slot, and a CLAIM takes the own round phase (R79). -/
def Transmitter.start (t : Transmitter) (phase : Nat) : Transmitter :=
  match t.urgent, t.claim, t.status, t.announce with
  | _ :: _, _, _, _ => { t with onLine := some (.urgent, false), backoff := 0 }
  | [], some (c, n), _, _ =>
    { t with onLine := some (.routine (.claim { c with phase := phase }) n, false), claim := none, backoff := 0 }
  | [], none, some (m, n), _ =>
    { t with onLine := some (.routine (.status m) n, false), status := none, backoff := 0 }
  | [], none, none, some (a, n) =>
    { t with onLine := some (.routine (.announce a) n, false), announce := none, backoff := 0 }
  | [], none, none, none => t

/-- ATTEMPT_START (R78): the line samples are counted, and the attempt starts when the count has reached its figure and a
notice is waiting. -/
def execAttemptStart (run : LineRun) (s : State) : Host.Outcome State Fault Refusal :=
  if s.boot = .running ∧ s.tx.onLine = none then
    let t := s.tx.sample run
    if t.required ≤ t.quiet ∧ t.waiting = true then .next { s with tx := t.start s.round.phase }
    else .next { s with tx := t }
  else .next s

/-- The frame that the attempt under way carries (R40, R75, R191). -/
def State.frameOnLine (s : State) : Option Frame :=
  match s.tx.onLine with
  | some (.urgent, _) => s.tx.urgent.head?.map fun x => ownFrame s.nodeId s.cfg.feederId kindCurtail x.1.bytes
  | some (.routine r _, _) => some (r.frame s.nodeId s.cfg.feederId)
  | none => none

/-- What the attempt under way puts on the line when it reads back `levels` (R40, R79, R80); nothing without an attempt. -/
def State.attemptBits (s : State) (levels : List Bool) : List Bool :=
  match s.frameOnLine with
  | some f => Frame.attemptBits f levels
  | none => []

/-! ### Completion (R79, R85) -/

/-- A latch-STATUS has been sent (R181): the snapshot is freed, and latches again when the current values differ. -/
def State.releaseSnapshot (s : State) : State :=
  let s1 := { s with sup := { s.sup with outstanding := false, latched := false } }
  if s.sup.current = s.sup.recorded then s1 else s1.latch s.sup.current .changedWhileLatched

/-- The owner's part at a transmission complete event (R85). -/
def State.completed (s : State) : Routine → State
  | .claim c => s.raiseClaim c.entries
  | .status m => if m.periodic then s else s.releaseSnapshot
  | .announce _ => s

/-- The driver is released after a completed transmission (R77, R79). -/
def Transmitter.sentFrame (t : Transmitter) (f : Option Frame) : Transmitter :=
  { t with onLine := none, quiet := 8, sent := f }

/-- TRANSMISSION_COMPLETE (R79, R85, R135, R181). -/
def execTransmissionComplete (s : State) : Host.Outcome State Fault Refusal :=
  if s.boot = .running then
    match s.tx.onLine with
    | some (.urgent, false) =>
      match s.tx.urgent with
      | _ :: rest => .next { s with tx := { s.tx.sentFrame s.frameOnLine with urgent := rest } }
      | [] => .next s
    | some (.routine r _, false) =>
      .next (State.completed { s with tx := s.tx.sentFrame s.frameOnLine } r).finish
    | _ => .next s
  else .next s

/-! ### Collision, backoff and drop (R80 to R84) -/

/-- COLLISION (R80, R81): the notice stops and the abort sequence begins. -/
def execCollision (s : State) : Host.Outcome State Fault Refusal :=
  match s.tx.onLine with
  | some (o, false) =>
    if s.boot = .running then .next { s with tx := { s.tx with onLine := some (o, true) } } else .next s
  | _ => .next s

/-- One step of the backoff generator (R83). -/
def lfsrStep (r : BitVec 16) : BitVec 16 :=
  (r <<< 1) ||| (if r.getLsbD 15 ^^ r.getLsbD 13 ^^ r.getLsbD 12 ^^ r.getLsbD 10 then 1#16 else 0#16)

/-- The draw at collision count `n`: the `n` least significant bits of the stepped register (R82, R83). -/
def draw (r : BitVec 16) (n : Nat) : Nat := (lfsrStep r).toNat % 2 ^ n

/-- The driver is released after an abort, and a backoff is drawn for collision count `n` (R77, R82). -/
def Transmitter.backOff (t : Transmitter) (n : Nat) : Transmitter :=
  { t with onLine := none, quiet := 0, backoff := draw t.lfsr n, lfsr := lfsrStep t.lfsr }

/-- The driver is released after a fourth abort, and the notice is dropped (R77, R84). -/
def Transmitter.dropped (t : Transmitter) : Transmitter := { t with onLine := none, quiet := 0, backoff := 0 }

/-- An aborted ROUTINE notice with its new count goes back to its slot, unless the slot has taken a newer one (R82). -/
def Transmitter.giveBack (t : Transmitter) (n : Nat) : Routine → Transmitter
  | .claim c => { t with claim := t.claim.or (some (c, n)) }
  | .status m => { t with status := t.status.or (some (m, n)) }
  | .announce a => { t with announce := t.announce.or (some (a, n)) }

/-- A drop is counted (R84). -/
def Transmitter.countDrop (t : Transmitter) : Routine → Transmitter
  | .claim _ => { t with claimsDropped := sat255 t.claimsDropped }
  | .status _ | .announce _ => { t with noticesDropped := sat255 t.noticesDropped }

/-- The owner's part at a send failed event (R85, R136, R181): a latch-STATUS is no longer outstanding. -/
def State.sendFailed (s : State) : Routine → State
  | .claim _ => s
  | .status m => if m.periodic then s else { s with sup := { s.sup with outstanding := false } }
  | .announce _ => s

/-- ABORT_END (R82, R84). -/
def execAbortEnd (s : State) : Host.Outcome State Fault Refusal :=
  if s.boot = .running then
    match s.tx.onLine with
    | some (.urgent, true) =>
      match s.tx.urgent with
      | (c, k) :: rest =>
        if k + 1 < 4 then .next { s with tx := { s.tx.backOff (k + 1) with urgent := (c, k + 1) :: rest } }
        else
          .next { s with tx := { s.tx.dropped with urgent := rest, noticesDropped := sat255 s.tx.noticesDropped } }
      | [] => .next s
    | some (.routine r k, true) =>
      if k + 1 < 4 then .next { s with tx := (s.tx.backOff (k + 1)).giveBack (k + 1) r }
      else .next (State.sendFailed { s with tx := s.tx.dropped.countDrop r } r).finish
    | _ => .next s
  else .next s

end Sys2Proof.Machine
end

