-- ==== Sys2Proof/Machine/Dispatch.lean ====
section
/-! DEFINITION. Machine/Dispatch.lean: the meaning of each command, one arm for each constructor of Instr. -/

namespace Sys2Proof.Machine

/-- The effect of a command on everything but the queue. -/
def exec (i : Instr) (s : State) : Host.Outcome State Fault Refusal :=
  match i with
  | .reset => Sys2Proof.Machine.execReset s
  | .startupBegin straps => Sys2Proof.Machine.execStartupBegin straps s
  | .configReadAttemptFail cause => Sys2Proof.Machine.execConfigReadAttemptFail cause s
  | .configReadRetry => Sys2Proof.Machine.execConfigReadRetry s
  | .configReadComplete image presence => Sys2Proof.Machine.execConfigReadComplete image presence s
  | .presenceRise p => Sys2Proof.Machine.execPresenceRise p s
  | .presenceFall p => Sys2Proof.Machine.execPresenceFall p s
  | .malformedRecord p => Sys2Proof.Machine.execMalformedRecord p s
  | .dock p r => Sys2Proof.Machine.execDock p r s
  | .update p r => Sys2Proof.Machine.execUpdate p r s
  | .depart p v => Sys2Proof.Machine.execDepart p v s
  | .unknownKindRecord p k => Sys2Proof.Machine.execUnknownKindRecord p k s
  | .recordInConfigFail p k => Sys2Proof.Machine.execRecordInConfigFail p k s
  | .padReply p => Sys2Proof.Machine.execPadReply p s
  | .contactLoss p => Sys2Proof.Machine.execContactLoss p s
  | .secondMark => Sys2Proof.Machine.execSecondMark s
  | .roundBoundary => Sys2Proof.Machine.execRoundBoundary s
  | .frameGood f a => Sys2Proof.Machine.execFrameGood f a s
  | .frameBad c a => Sys2Proof.Machine.execFrameBad c a s
  | .frameAborted a => Sys2Proof.Machine.execFrameAborted a s
  | .noticeRejected => Sys2Proof.Machine.execNoticeRejected s
  | .drainClaim => Sys2Proof.Machine.execDrainClaim s
  | .drainAnnounce => Sys2Proof.Machine.execDrainAnnounce s
  | .drainStatus => Sys2Proof.Machine.execDrainStatus s
  | .drainCurtail => Sys2Proof.Machine.execDrainCurtail s
  | .directiveClear => Sys2Proof.Machine.execDirectiveClear s
  | .directivePadOffline => Sys2Proof.Machine.execDirectivePadOffline s
  | .directivePadOnline => Sys2Proof.Machine.execDirectivePadOnline s
  | .computeCompletion => Sys2Proof.Machine.execComputeCompletion s
  | .attemptStart run => Sys2Proof.Machine.execAttemptStart run s
  | .transmissionComplete => Sys2Proof.Machine.execTransmissionComplete s
  | .collision => Sys2Proof.Machine.execCollision s
  | .abortEnd => Sys2Proof.Machine.execAbortEnd s
  | .curtailAssertion => Sys2Proof.Machine.execCurtailAssertion s
  | .curtailRelease => Sys2Proof.Machine.execCurtailRelease s
  | .measureTickSend p => Sys2Proof.Machine.execMeasureTickSend p s
  | .statusArrival p a => Sys2Proof.Machine.execStatusArrival p a s
  | .noAnswer p => Sys2Proof.Machine.execNoAnswer p s
  | .retryTimerExpiry p => Sys2Proof.Machine.execRetryTimerExpiry p s

end Sys2Proof.Machine
end

