-- ==== Sys2Proof/Safety.lean ====
section
/-! DEFINITION. Safety.lean: what a safe run of the TC44 is, in the terms the statements use: how a command completes,
what a command about one port leaves alone, and the properties that every step keeps. -/

namespace Sys2Proof.Machine

/-! ### Outcomes and frames -/

/-- The command completes, and its next state has the property. -/
def Completes (o : Host.Outcome State Fault Refusal) (P : State → Prop) : Prop := ∃ t, o = .next t ∧ P t

/-- Every step that begins in a state with the property and answers a next state ends in one. -/
def StepKeeps (I : State → Prop) : Prop := ∀ s t : State, I s → step s = .next t → I t

/-- Nothing of an earlier command waits to be handed over: the model's own fields `wanted` and `reports` are clear. -/
def State.Settled (s : State) : Prop := s.engine.wanted = false ∧ s.sup.reports = []

/-- A compute in flight without the marks that R137 sets in it. -/
def Compute.unmarked (c : Compute) : Compute := { c with stopped := Vector.replicate 4 false }

/-- What a command about port `p` leaves alone: the other ports, the line, the round, the peers, the ceiling, the
configuration and the queue; of the transmitter all but the STATUS slot, of the engine all but the marks of R137, and of
the supervisor all but PAD_HELD_ANY, the snapshot and the pins. -/
def OnlyPort (s t : State) (p : PortId) : Prop :=
  t = { s with choice := t.choice, ports := t.ports, tx := { s.tx with status := t.tx.status },
               engine := { s.engine with inFlight := t.engine.inFlight }, sup := t.sup }
  ∧ (∀ q : PortId, q ≠ p → t.ports[q] = s.ports[q])
  ∧ t.engine.inFlight.map Compute.unmarked = s.engine.inFlight.map Compute.unmarked
  ∧ t.sup = { t.sup with conflict := s.sup.conflict, reports := s.sup.reports, periodic := s.sup.periodic }
  ∧ t.sup.current = { s.sup.current with padHeldAny := t.sup.current.padHeldAny }

/-- The pad of port `p` draws nothing and is given nothing (R137, R157, R158). -/
def Port.Off (x : Port) : Prop :=
  x.alloc.command = 0 ∧ x.alloc.intent = 0 ∧ x.stage.setpoint = 0 ∧ x.stage.enable = false

/-- The monitors of a port with the stage record `g` have restarted (R160): every count is 0 and no vehicle-origin condition is
present; the stage-origin ones stay as they were. -/
def Stage.Restarted (g h : Stage) : Prop :=
  h.odCount = 0 ∧ h.ndSteady = 0 ∧ h.ndLow = 0 ∧ h.tpCount = 0 ∧ h.sfFlag = 0 ∧ h.sfSilence = 0 ∧ h.sfNormal = 0
  ∧ h.odPresent = false ∧ h.ndPresent = false ∧ h.tpPresent = false
  ∧ h.sfPresent = g.sfPresent ∧ h.busLow = g.busLow ∧ h.busHigh = g.busHigh

/-- The compute in flight, if any, has the pad of port `p` marked as having no result (R137). -/
def State.Marked (s : State) (p : PortId) : Prop := ∀ c ∈ s.engine.inFlight, c.stopped[p] = true

/-- A compute of the kind has started, on the way from `s` to `t`: in flight is the one whose demands, budget and Rank List are
taken from `t` as it stands, and the ports are as a compute start leaves those of `s` (R33 to R35, R120). -/
def State.Started (s t : State) (kind : ComputeKind) : Prop :=
  t.engine.inFlight = (t.startCompute kind).engine.inFlight ∧ t.ports = (s.startCompute kind).ports

/-- The summary of a pad in a STATUS tells what the pad's port holds (R61): the session state, the counts, the conditions in
force with their marks, and the response of the highest priority among them. -/
def Summary.Tells (x : Summary) (y : Port) : Prop :=
  x.state = y.session.state ∧ x.retries = y.fault.retries ∧ x.errors = y.session.errors
  ∧ (∀ i : Fin 7, ∀ c ∈ allConds[i.val]?,
      let e := y.fault.inForce.get c
      x.entries.getLsbD i.val = e.isSome ∧ (x.present.getLsbD i.val = true ↔ ∃ k ∈ e, k.present = true)
      ∧ (x.reported.getLsbD i.val = true ↔ ∃ k ∈ e, k.response = .report))
  ∧ match x.response with
    | some r => (∃ c ∈ allConds, ∃ e ∈ y.fault.inForce.get c, e.response = r) ∧ r ≠ .ignore
        ∧ ∀ c ∈ allConds, ∀ e ∈ y.fault.inForce.get c,
            e.response = .ignore ∨ responseCode (some r) ≤ responseCode (some e.response)
    | none => ∀ c ∈ allConds, ∀ e ∈ y.fault.inForce.get c, e.response = .ignore

/-- A STATUS tells, beside its health values, its cause and its mark, what the part holds (R61, R182). -/
def Status.Tells (m : Status) (s : State) : Prop :=
  m.duplicate = s.duplicateId ∧ m.conflict = s.sup.conflict ∧ m.short = s.engine.short ∧ m.headroom = s.engine.headroom
  ∧ m.mean = s.round.mean
  ∧ m.counters = ⟨s.line.bad, s.line.aborted, s.line.foreign, s.line.overruns, s.badKind, s.tx.claimsDropped,
      s.tx.noticesDropped⟩
  ∧ ∀ pad : PadId,
      ((∀ p : PortId, s.cfg.portMap[p] ≠ some pad) → m.pads[pad] = none)
      ∧ ∀ p : PortId, s.cfg.portMap[p] = some pad → (∀ q : PortId, s.cfg.portMap[q] = some pad → q = p) →
          (m.pads[pad]).isSome = true ∧ ∀ x ∈ m.pads[pad], x.Tells s.ports[p]

/-! ### Start-up (R57, R104, R140, R141, R167, R183, R184, R189) -/

/-- Before start-up completes, and in CONFIG_FAIL, every block holds its reset values; only the contact links answer. -/
def State.Dormant (s : State) : Prop :=
  s.boot ≠ .running →
    (s = { State.reset.under s with boot := s.boot, nodeId := s.nodeId, ports := s.ports })
    ∧ ∀ p : PortId, s.ports[p] = { State.reset.ports[p] with link := s.ports[p].link }

/-- While RESET has been low for 1 ms, or the supply is below 2.85 V, the part is in reset, or the reset is the next command
(R184, R194). -/
def State.ResetFollows (s : State) : Prop :=
  s.pins.supply < 2850 ∨ 1000 ≤ s.resetHold → s.boot = .held ∨ s.pending.head? = some .reset

/-- No two ports carry one logical pad (R186). -/
def PadsDistinct (cfg : Configuration) : Prop :=
  ∀ p q : PortId, ∀ pad : PadId, cfg.portMap[p] = some pad → cfg.portMap[q] = some pad → p = q

/-- Each condition has an allowed response (R169). -/
def ResponsesAllowed (cfg : Configuration) : Prop :=
  ∀ c ∈ allConds, allowedResponse c (cfg.responses.of c) = true

/-- The running part's configuration lies in the ranges of R186, R187 and R188. -/
def State.ConfigInRange (s : State) : Prop :=
  s.boot = .running →
    100 ≤ s.cfg.lCfg ∧ s.cfg.lCfg ≤ 65000 ∧ s.cfg.guard ≤ s.cfg.lCfg / 4
    ∧ 10 ≤ s.cfg.dUp ∧ s.cfg.dUp ≤ 1000 ∧ 10 ≤ s.cfg.pc ∧ s.cfg.pc ≤ 100
    ∧ 1 ≤ s.cfg.window ∧ s.cfg.window ≤ 20
    ∧ 100 ≤ s.cfg.vHigh ∧ s.cfg.vHigh ≤ 1000 ∧ s.cfg.vLow + 40 < s.cfg.vHigh
    ∧ s.cfg.feederId ≤ 254 ∧ 1 ≤ s.cfg.nCfg ∧ s.cfg.nCfg ≤ 16 ∧ s.nodeId.val < s.cfg.nCfg
    ∧ s.cfg.solo = (s.cfg.lCfg - s.cfg.guard) / s.cfg.nCfg
    ∧ PadsDistinct s.cfg ∧ ResponsesAllowed s.cfg
    ∧ (∃ p : PortId, s.enabled p = true)
    ∧ ∀ p : PortId, s.enabled p = true → 100 ≤ s.cfg.rating[p] ∧ s.cfg.rating[p] ≤ 4000

/-! ### Sessions (chapters 1 and 2) -/

/-- What a session record holds in a safe state, under the port's stage rating (R1, R2, R26, R30, R32, R33). -/
def Session.InRange (x : Session) (rating : Nat) : Prop :=
  x.energy ≤ 20000 ∧ x.acc ≤ 35999 ∧ x.cls ≤ 3 ∧ x.errors ≤ 255 ∧ x.urgency ≤ 255 ∧ x.floor ≤ x.ask
  ∧ (∀ t ∈ x.timeLeft, t ≤ 65535) ∧ (∀ c ∈ x.cap, c ≤ 4250)
  ∧ (x.state.admitted = true →
      1 ≤ x.pMax ∧ x.pMax ≤ rating ∧ (∀ m ∈ x.pMin, m ≤ x.pMax)
      ∧ x.overdue = overdueOf x.timeLeft x.energy ∧ x.urgency = urgencyOf x.timeLeft x.energy x.pMax
      ∧ x.lastHeard.isSome = true ∧ x.watch.isSome = true)
  ∧ (x.state.admitted = false → x = Session.empty x.state x.errors)
  ∧ (x.state = .complete → x.energy = 0) ∧ (x.state.eligible = true → 0 < x.energy)

/-- Every session record is in range and agrees with the presence level (R2, R4, R5), and the presence filters count no
further than their time (R4). -/
def State.SessionsInRange (s : State) : Prop :=
  ∀ p : PortId,
    s.ports[p].session.InRange s.cfg.rating[p] ∧ s.ports[p].change ≤ 50
    ∧ (s.ports[p].session.state = .vacant → s.ports[p].level = false)
    ∧ (s.ports[p].session.state = .arrived ∨ s.ports[p].session.state.admitted = true → s.ports[p].level = true)

/-! ### Power (chapters 8 and 10) -/

/-- The figures of one pad in a safe state: the setpoint at or below the command, the command at or below the intent and
the intent at or below the grant (R116, R132, R157); the enable follows the setpoint (R158); a pad that is not eligible
has none of it (R137). -/
def Port.PowerSafe (x : Port) : Prop :=
  x.stage.setpoint ≤ x.alloc.command ∧ x.alloc.command ≤ x.alloc.intent ∧ x.alloc.intent ≤ x.alloc.grant
  ∧ x.stage.enable = decide (0 < x.stage.setpoint)
  ∧ (x.session.state.eligible = false → x.alloc.command = 0 ∧ x.alloc.intent = 0)

/-- Every pad is safe, and the compute in flight has a result only for a pad that has stayed eligible (R128, R137). -/
def State.PowerSafe (s : State) : Prop :=
  (∀ p : PortId, s.ports[p].PowerSafe)
  ∧ ∀ c ∈ s.engine.inFlight, ∀ p : PortId, ∀ pad ∈ s.cfg.portMap[p],
      c.hasResult p pad = true → s.ports[p].session.state.eligible = true

/-! ### Faults (chapter 11) -/

/-- Each entry has the configured response or LATCH, and none has IGNORE (R168, R170). -/
def InForce.Legal (f : InForce) (table : ResponseTable) : Prop :=
  ∀ c ∈ allConds, ∀ e ∈ f.get c, e.response = .latch ∨ (e.response = table.of c ∧ e.response ≠ .ignore)

/-- A pad's fault record in a safe state: legal entries; the retry timer runs exactly while a retry entry and no LATCH is
in force (R170, R171); its ranges (R168). -/
def PadFault.Safe (f : PadFault) (table : ResponseTable) : Prop :=
  f.inForce.Legal table
  ∧ (f.timer.isSome = true ↔
      (f.inForce.any fun e => retrying e.response) = true ∧ (f.inForce.any fun e => e.response == .latch) = false)
  ∧ (∀ t ∈ f.timer, t ≤ 30000) ∧ f.retries ≤ 3

/-- Every fault record is safe, and an admitted session is HELD exactly while its pad is held (R2, R18, R173). -/
def State.FaultsSafe (s : State) : Prop :=
  ResponsesAllowed s.cfg
  ∧ ∀ p : PortId, s.ports[p].fault.Safe s.cfg.responses
      ∧ (s.ports[p].session.state.admitted = true →
          (s.ports[p].session.state = .held ↔ s.ports[p].fault.held = true))

/-! ### Queues and counts (R47, R50 to R52, R55, R56, R64, R65, R69, R74, R75, R77, R82, R84, R168) -/

/-- The receiving side's counts are in their ranges. -/
def Line.CountsInRange (l : Line) : Prop :=
  l.queue.length ≤ 3 ∧ l.trial ≤ 3 ∧ (l.acq ≠ .trial → l.trial = 0) ∧ l.errors ≤ 15 ∧ (l.acq ≠ .inStep → l.errors = 0)
  ∧ l.silence ≤ 3 ∧ l.announce ≤ 15 ∧ (∀ n ∈ l.span, n ≤ 2) ∧ (l.span.isSome = true ↔ l.acq = .inStep)
  ∧ (l.acq ≠ .inStep → l.queue = []) ∧ l.bad ≤ 255 ∧ l.aborted ≤ 255 ∧ l.foreign ≤ 255 ∧ l.overruns ≤ 255

/-- The sending side's counts are in their ranges. -/
def Transmitter.CountsInRange (t : Transmitter) : Prop :=
  t.urgent.length ≤ 2 ∧ (∀ x ∈ t.urgent, x.2 ≤ 3) ∧ (∀ x ∈ t.claim, x.2 ≤ 3) ∧ (∀ x ∈ t.status, x.2 ≤ 3)
  ∧ (∀ x ∈ t.announce, x.2 ≤ 3)
  ∧ (∀ x ∈ t.onLine, match x.1 with
      | .urgent => t.urgent ≠ []
      | .routine _ n => n ≤ 3)
  ∧ t.quiet ≤ 236 ∧ t.backoff ≤ 7 ∧ t.claimsDropped ≤ 255 ∧ t.noticesDropped ≤ 255

/-- Every queue and count is in its range. -/
def State.CountsInRange (s : State) : Prop :=
  s.line.CountsInRange ∧ s.tx.CountsInRange ∧ s.badKind ≤ 255 ∧ s.sup.periodic ≤ 15

/-! ### Rounds (chapter 7) -/

/-- The Round Timer's figures, the stamps taken from it and the phase errors are in range (R43, R87, R105, R113). -/
def State.RoundInRange (s : State) : Prop :=
  s.round.phase < s.round.length ∧ 251 ≤ s.round.length ∧ s.round.length ≤ 750 ∧ s.round.prevLength ≤ 750
  ∧ s.round.count ≤ 255
  ∧ (∀ m ∈ s.round.mean, -250 ≤ m ∧ m ≤ 249) ∧ (∀ m ∈ s.round.lastMean, -250 ≤ m ∧ m ≤ 249)
  ∧ s.line.stamp.phase ≤ 749 ∧ (∀ q ∈ s.line.queue, q.stamp.phase ≤ 749)
  ∧ ∀ id : NodeId, ∀ e ∈ s.peers[id].phaseErr, -250 ≤ e ∧ e ≤ 249

/-! ### Peers (chapter 6) -/

/-- The own entry is empty, ages and draws are in range, and only a fresh entry keeps a claim (R87, R88, R92). -/
def State.PeersKept (s : State) : Prop :=
  s.peers[s.nodeId] = PeerEntry.reset
  ∧ ∀ id : NodeId,
      s.peers[id].age ≤ 15 ∧ s.peers[id].draw ≤ 16000
      ∧ (s.peers[id].claim.isSome = true ↔ s.peers[id].heard = true ∧ s.peers[id].age < 4)
      ∧ (∀ c ∈ s.peers[id].claim, c.demands.length ≤ 4 ∧ (c.demands.map PeerDemand.pad).Nodup
          ∧ ∀ d ∈ c.demands, d.cls ≤ 3 ∧ d.urgency ≤ 255 ∧ d.floor ≤ d.ask)

/-! ### Curtailment (R141, R142, R145 to R147) -/

/-- The Curtail Set is in range, local curtail follows the filtered pin, whose filter counts only while the pin shows the other
level, the target is the figure of R147, and the ceiling lies between a tenth of L_cfg and the target. -/
def State.CurtailSafe (s : State) : Prop :=
  (∀ id : NodeId, ∀ e ∈ s.curtail.set[id], 10 ≤ e.percent ∧ e.percent ≤ 100 ∧ e.age ≤ 2)
  ∧ s.curtail.localForce = s.curtail.pin ∧ s.curtail.hold ≤ 20
  ∧ (0 < s.curtail.hold → s.pins.curtail = !s.curtail.pin) ∧ s.curtail.target = s.curtailTarget
  ∧ s.curtail.ceiling ≤ s.curtail.target ∧ s.curtail.target ≤ s.cfg.lCfg ∧ s.cfg.lCfg * 10 / 100 ≤ s.curtail.ceiling

/-! ### Reports (R51, R96, R114, R150, R151, R178 to R181) -/

/-- The node mode is COORDINATED exactly while the four inputs of R151 hold. -/
def State.ModeFollows (s : State) : Prop :=
  s.curtail.mode = .coordinated ↔
    s.line.acq = .inStep ∧ s.line.span = some 2 ∧ s.duplicateId = false ∧ s.boot ≠ .configFail

/-- The five conditions of the Health Snapshot and CONFIG_CONFLICT are as their owners hold them. -/
def State.HealthFollows (s : State) : Prop :=
  (s.sup.current.lineInStep = true ↔ s.line.acq = .inStep)
  ∧ (s.sup.current.solo = true ↔ s.curtail.mode = .solo)
  ∧ (s.sup.current.ceilingReduced = true ↔ s.curtail.ceiling < s.cfg.lCfg ∨ s.lLow < s.cfg.lCfg)
  ∧ (s.sup.current.padHeldAny = true ↔ ∃ p : PortId, s.enabled p = true ∧ s.ports[p].fault.held = true)
  ∧ (s.sup.current.phaseOut = true ↔ ∃ m ∈ s.round.lastMean, s.cfg.window < m.natAbs)
  ∧ s.sup.current.phaseOut = s.round.phaseOut
  ∧ (s.sup.conflict = true ↔ ∃ id : NodeId, s.peerState id = .incompatible)

/-- A free snapshot agrees with the current values, and a latch-STATUS is outstanding only while it is latched (R180,
R181). -/
def State.SnapshotFollows (s : State) : Prop :=
  s.Settled ∧ (s.sup.latched = false → s.sup.recorded = s.sup.current)
  ∧ (s.sup.outstanding = true → s.sup.latched = true)

/-- The in-force set of an enabled pad holds an entry with the response. -/
def State.HasEntry (s : State) (r : Response) : Prop :=
  ∃ p : PortId, s.enabled p = true ∧ ∃ c ∈ allConds, ∃ e ∈ s.ports[p].fault.inForce.get c, e.response = r

/-- The FAULT and ALERT pins are driven as R178 and R179 say; before start-up completes FAULT is asserted and ALERT is
released (R184). -/
def State.PinsFollow (s : State) : Prop :=
  (s.sup.faultPin = true ↔
    s.boot ≠ .running ∨ s.HasEntry .latch ∨ s.HasEntry .retryLong ∨ s.HasEntry .retryShort ∨ s.duplicateId = true
      ∨ (s.cfg.alertRoute = false ∧ (s.HasEntry .report ∨ s.sup.conflict = true)))
  ∧ (s.sup.alertPin = true ↔
    s.boot = .running
      ∧ (s.sup.latched = true ∨ (s.cfg.alertRoute = true ∧ (s.HasEntry .report ∨ s.sup.conflict = true))))

/-! ### Terms of the statements -/

/-- A figure clamped to the nearest end of its range (R187). -/
def ToNearest (lo hi read stored : Nat) : Prop :=
  (read < lo → stored = lo) ∧ (lo ≤ read → read ≤ hi → stored = read) ∧ (hi < read → stored = hi)

/-- The record is one that gets BAD_REQUEST at the pad (R9, R13, R14, R15). -/
def BadRequest (x : Session) (p : PortId) (c : Instr) : Prop :=
  (∃ r : DockRecord, c = .dock p r ∧ (3 < r.cls.toNat ∨ r.maxPower = 0))
  ∨ (∃ r : UpdateRecord, c = .update p r ∧ (x.state.admitted = false ∨ r.maxPower = some 0))
  ∨ (∃ v : BitVec 32, c = .depart p v ∧ (x.state.admitted = false ∨ x.vehicle ≠ v))
  ∨ ∃ k : Byte, c = .unknownKindRecord p k ∧ k ≠ 1 ∧ k ≠ 2 ∧ k ≠ 3

/-- The record of an admission (R10): the clamped request of R9, A 0, no cap, the flags of R30 and R32, the watch
started. -/
def admission (r : DockRecord) (rating errors now : Nat) (held : Bool) : Session :=
  let energy := min r.energy.toNat 20000
  let pMax := min r.maxPower.toNat rating
  let timeLeft := r.deadline.map BitVec.toNat
  { Session.empty (if held then .held else if energy = 0 then .complete else .waiting) errors with
    vehicle := r.vehicle, cls := r.cls.toNat, energy := energy, timeLeft := timeLeft, pMax := pMax
    pMin := r.minPower.map fun m => min m.toNat pMax
    urgency := urgencyOf timeLeft energy pMax, overdue := overdueOf timeLeft energy
    lastHeard := some now, watch := some now }

/-- The state that a record leaves an admitted session in (R11, R13). That an eligible session keeps its state is the model's
reading of R11 (log 13). -/
def stateAgain (x : PadState) (energy : Nat) : PadState :=
  if x = .held then .held
  else if energy = 0 then .complete
  else if x = .complete then .waiting
  else x

/-- What an accepted record leaves of the fault record of a port (R7, R19): with a session whose vehicle had been silent,
CONTACT_LOSS is reported cleared. -/
def Port.faultHeard (x : Port) : PadFault :=
  if x.session.state.admitted = true ∧ x.session.contactLoss = true then x.fault.clear .contactLoss else x.fault

/-- What an accepted record leaves of a port whose admitted session it rewrites into `y` (R7, R11, R13, R137): the pad
loses its command when it stops being eligible and keeps it otherwise, the fault record is kept but for a CONTACT_LOSS that
clears, and the reply tells the state that results. -/
def Rewritten (s t : State) (p : PortId) (pad : PadId) (y : Session) : Prop :=
  OnlyPort s t p ∧ t.ports[p].session = y ∧ t.ports[p].level = s.ports[p].level
  ∧ t.ports[p].change = s.ports[p].change ∧ t.ports[p].fault = s.ports[p].faultHeard
  ∧ t.ports[p].link.sent = s.ports[p].link.sent
  ∧ (if s.ports[p].session.state.eligible = true ∧ y.state.eligible = false then t.ports[p].Off ∧ t.Marked p
     else t.ports[p].alloc = s.ports[p].alloc ∧ t.ports[p].stage = s.ports[p].stage)
  ∧ t.ports[p].link.reply = some
      (⟨pad.val, y.state, if y.state.eligible = true then t.ports[p].alloc.command else 0, y.energy,
        if y.state = .held then .fault else .ok⟩, 0)

/-- A request that a drain makes (R67, R101): an out-of-round compute has started in the present mode, on the table and the
ceiling as the drain leaves them; without one, the
engine and the ports are as they were. -/
def StartedIf (s t : State) (asked : Prop) [Decidable asked] : Prop :=
  if asked then
    t.engine = { s.engine with inFlight := t.engine.inFlight } ∧ State.Started s t .outOfRound
    ∧ t.engine.inFlight.map (fun c => (c.kind, c.mode, c.elapsed)) = some (.outOfRound, t.curtail.mode, 0)
  else t.engine = s.engine ∧ t.ports = s.ports

/-- The own DIRECTIVE at the front of the queue, of the given action. -/
def State.OwnDirective (s : State) (d : Directive) : Prop :=
  s.boot = .running ∧ s.engine.inFlight = none ∧ (d.target = s.nodeId.val ∨ d.target = 31)
  ∧ ∃ q ∈ s.line.queue.head?, checkNotice q.notice = some (.directive d)

/-- The port carries a pad named in the directive's mask (R73). -/
def State.Names (s : State) (d : Directive) (p : PortId) : Prop :=
  ∃ pad ∈ s.cfg.portMap[p], d.pads[pad] = true

/-- The backoff generator steps once for a draw at collision count `n` (R82, R83): every bit moves one place up, bit 0 takes
the exclusive-OR of bits 15, 13, 12 and 10, and the backoff is the `n` least significant bits of the new value. A register
that is not 0 stays so. -/
def StepsGenerator (old new : Transmitter) (n : Nat) : Prop :=
  (∀ i : Fin 15, new.lfsr.getLsbD (i.val + 1) = old.lfsr.getLsbD i.val)
  ∧ new.lfsr.getLsbD 0 =
      (old.lfsr.getLsbD 15 ^^ old.lfsr.getLsbD 13 ^^ old.lfsr.getLsbD 12 ^^ old.lfsr.getLsbD 10)
  ∧ new.backoff = new.lfsr.toNat % 2 ^ n ∧ (old.lfsr ≠ 0 → new.lfsr ≠ 0)

end Sys2Proof.Machine
end

