-- ==== Sys2Proof/Certificates/Slice0/Obligations.lean ====
section
/-! DEFINITION. Certificates/Slice0/Obligations.lean: the statements about the TC44 model, one definition each, in the
order of OBLIGATIONS.json. -/

open Sys2Proof Sys2Proof.Machine

/-! ### The machine -/

/-- The command at the front of the queue is taken, and the step is its meaning on the state with the queue's rest. -/
def Obligations.StepTakesTheFrontCommand : Prop :=
  ∀ (c : Instr) (rest : List Instr) (s : State),
    s.pending = c :: rest → step s = exec c { s with pending := rest }

/-- A command completes exactly when its operands spell an event of the part, and then it leaves the queue of the waiting
commands as it was; otherwise it stops with the one fault of the model (log 4). -/
def Obligations.ExecCompletesOnWellFormedCommands : Prop :=
  ∀ (c : Instr) (s : State),
    (c.wellFormed = true → Completes (exec c s) fun t => t.pending = s.pending)
    ∧ (c.wellFormed = false → exec c s = .fault .illFormed)

/-- What a step on an empty queue does is the model's own way to let time pass (log 1), with the pins of the coming
milliseconds (log 21). A millisecond in which RESET has been low for 1 ms, or the supply falls below 2.85 V, hands over
the reset in place of all else, and a shorter low is discarded (R184, R194). Before start-up completes a step counts the
windows and pauses of the image read (R185); in CONFIG_FAIL it ages the replies (R7, R15). In the running part it hands
over the drain of a waiting notice (R67), else the measure ticks that are due (R155), else lets a millisecond of the
node timebase and of the round pass (R105), by which the retry timers (R171), the answer windows (R155), the presence
and CURTAIL filters (R4, R142) and the compute move, and hands over what that makes due: the watch of 6 s (R19) and the
second mark (R28) among it, at the model's instants (log 39). -/
def Obligations.IdleStepLetsTimePass : Prop :=
  ∀ s : State, s.pending = [] → Completes (step s) fun t =>
    let pins := s.coming.headD s.pins
    let moved : State := { s with
      pins := pins, coming := s.coming.tail
      resetHold := min 1000 (if 1000 ≤ pins.resetLead then s.resetHold + pins.resetLead else pins.resetTail) }
    let resets := pins.supply < 2850 ∨ 1000 ≤ s.resetHold + pins.resetLead ∨ 1000 ≤ pins.resetTail
    match s.boot with
    | .held => t = moved
    | .due n ms =>
      t = if resets then { moved with pending := [.reset] } else { moved with
        pending := if pins.busLow = true ∧ 10 ≤ ms + 1 then [.configReadAttemptFail .busHeldLow] else []
        boot := if pins.busLow = false then .reading n 0 else if 10 ≤ ms + 1 then .due n ms else .due n (ms + 1) }
    | .reading n ms =>
      t = if resets then { moved with pending := [.reset] } else { moved with
        pending := if 30 ≤ ms + 1 then [.configReadAttemptFail .timedOut] else []
        boot := if 30 ≤ ms + 1 then .reading n ms else .reading n (ms + 1) }
    | .waiting n ms =>
      t = if resets then { moved with pending := [.reset] } else { moved with
        pending := if 10 ≤ ms + 1 then [.configReadRetry] else []
        boot := if 10 ≤ ms + 1 then .waiting n ms else .waiting n (ms + 1) }
    | .configFail =>
      if resets then t = { moved with pending := [.reset] }
      else t = { moved with ports := t.ports, pending := t.pending }
      ∧ (∀ p : PortId, t.ports[p].link = { s.ports[p].link with reply := s.ports[p].link.reply.map fun r => (r.1, r.2 + 1) }
          ∧ t.ports[p].session = s.ports[p].session)
      ∧ ∀ c : Instr, c ∈ t.pending ↔ ∃ p : PortId, c = .padReply p ∧ ∃ r ∈ t.ports[p].link.reply, 20 ≤ r.2
    | .running =>
      match s.line.queue, s.engine.inFlight with
      | q :: _, none =>
        t = { s with pending := [match checkNotice q.notice with
          | none => .noticeRejected
          | some (.claim _ _) => .drainClaim
          | some (.announce _ _) => .drainAnnounce
          | some (.status _ _) => .drainStatus
          | some (.curtail _ _) => .drainCurtail
          | some (.directive d) =>
            match d.action with
            | .clear => .directiveClear
            | .padOffline => .directivePadOffline
            | .padOnline => .directivePadOnline] }
      | _, _ =>
        if ∃ p : PortId, s.enabled p = true ∧ s.ports[p].stage.nextTick ≤ s.now then
          t = { s with pending := t.pending, ports := t.ports }
          ∧ (∀ p : PortId, t.ports[p] =
              if s.enabled p = true ∧ s.ports[p].stage.nextTick ≤ s.now then
                { s.ports[p] with stage := { s.ports[p].stage with nextTick := s.ports[p].stage.nextTick + 100 } }
              else s.ports[p])
          ∧ ∀ c : Instr, c ∈ t.pending ↔
              ∃ p : PortId, c = .measureTickSend p ∧ s.enabled p = true ∧ s.ports[p].stage.nextTick ≤ s.now
        else if resets then t = { moved with pending := [.reset] }
        else
          let last := s.round.length ≤ s.round.phase + 1
          t = { moved with
            now := s.now + 1, pending := t.pending, ports := t.ports
            round := { s.round with phase := if last then s.round.phase else s.round.phase + 1 }
            curtail := { s.curtail with
              hold := if pins.curtail = s.curtail.pin then 0 else min 20 (s.curtail.hold + 1) }
            engine := { s.engine with
              inFlight := s.engine.inFlight.map fun c => { c with elapsed := c.elapsed + 1 } } }
          ∧ (∀ p : PortId, t.ports[p] = { s.ports[p] with
              change :=
                if s.enabled p = false then s.ports[p].change
                else if pins.presence.getLsbD p.val = s.ports[p].level then 0
                else min 50 (s.ports[p].change + 1)
              fault := { s.ports[p].fault with timer := s.ports[p].fault.timer.map fun n => n - 1 }
              stage := { s.ports[p].stage with awaiting := s.ports[p].stage.awaiting.map fun n => n + 1 }
              link := { s.ports[p].link with reply := s.ports[p].link.reply.map fun r => (r.1, r.2 + 1) } })
          ∧ (∀ p : PortId,
              let x := t.ports[p]
              let edge (up : Bool) : Prop :=
                s.enabled p = true ∧ x.level ≠ up ∧ pins.presence.getLsbD p.val = up ∧ 50 ≤ x.change
              (.retryTimerExpiry p ∈ t.pending ↔ s.enabled p = true ∧ x.fault.timer = some 0)
              ∧ (.noAnswer p ∈ t.pending ↔ s.enabled p = true ∧ ∃ n ∈ x.stage.awaiting, 30 ≤ n)
              ∧ (.padReply p ∈ t.pending ↔ s.enabled p = true ∧ ∃ r ∈ x.link.reply, 20 ≤ r.2)
              ∧ (.presenceRise p ∈ t.pending ↔ edge true) ∧ (.presenceFall p ∈ t.pending ↔ edge false)
              ∧ (.contactLoss p ∈ t.pending ↔
                  s.enabled p = true ∧ x.session.state.admitted = true ∧ ∃ w ∈ x.session.watch, w + 6000 ≤ t.now))
          ∧ (.curtailAssertion ∈ t.pending ↔ s.curtail.pin = false ∧ pins.curtail = true ∧ 20 ≤ t.curtail.hold)
          ∧ (.curtailRelease ∈ t.pending ↔ s.curtail.pin = true ∧ pins.curtail = false ∧ 20 ≤ t.curtail.hold)
          ∧ (.secondMark ∈ t.pending ↔ t.now % 1000 = 0)
          ∧ (.computeCompletion ∈ t.pending ↔ ∃ c ∈ t.engine.inFlight, 3 ≤ c.elapsed)
          ∧ (.roundBoundary ∈ t.pending ↔ last)

/-! ### Reset and start-up (chapter 12) -/

/-- R184, R185, R194: a reset at any point abandons what was in flight and puts every block at its reset values; while
RESET is low or the supply is below 2.85 V start-up does not begin; it reads the straps once and makes at most four
attempts, each of which begins when it is due or waits for a bus held low, and the fourth failure enters CONFIG_FAIL.
The values that the model gives the configuration before it is read are its own choice (log 5), and so is that a RESET
which has been high from the start of the millisecond has held high (log 44). -/
def Obligations.ResetAndStartupReads : Prop :=
  (∀ s : State, Completes (exec .reset s) fun t =>
    t = { State.reset with pending := s.pending, choice := s.choice, pins := s.pins, coming := s.coming
                           resetHold := s.resetHold }
    ∧ t.boot = .held ∧ t.tx.onLine = none ∧ t.engine.inFlight = none ∧ t.sup.faultPin = true ∧ t.sup.alertPin = false
    ∧ ∀ p : PortId, t.ports[p].session.state = .vacant ∧ t.ports[p].session.errors = 0 ∧ t.ports[p].fault.retries = 0
        ∧ t.ports[p].stage.enable = false ∧ t.ports[p].link.reply = none)
  ∧ (∀ (s : State) (straps : BitVec 4), Completes (exec (.startupBegin straps) s) fun t =>
    if s.boot = .held ∧ 2850 ≤ s.pins.supply ∧ s.resetHold = 0 ∧ s.pins.resetLead = 0 then
      t = { s with nodeId := t.nodeId, boot := if s.pins.busLow = true then .due 1 0 else .reading 1 0 }
      ∧ t.nodeId.val = straps.toNat
    else t = s)
  ∧ (∀ (s : State) (cause : ReadFailure) (n ms : Nat),
      (s.boot = .reading n ms ∧ cause ≠ .busHeldLow) ∨ (s.boot = .due n ms ∧ cause = .busHeldLow) →
      Completes (exec (.configReadAttemptFail cause) s) fun t =>
        t = { s with boot := if n < 4 then .waiting n 0 else .configFail })
  ∧ ∀ (s : State) (n ms : Nat), s.boot = .waiting n ms → Completes (exec .configReadRetry s) fun t =>
      t = { s with boot := if s.pins.busLow = true then .due (n + 1) 0 else .reading (n + 1) 0 }

/-- R186: the checks of an image of 128 bytes, on the values as read; a failed check leaves nothing but CONFIG_FAIL. -/
def Obligations.ImageChecksDecideStartup : Prop :=
  ∀ (s : State) (n ms : Nat) (image : List Byte) (presence : BitVec 4),
    s.boot = .reading n ms → image.length = 128 →
    Completes (exec (.configReadComplete image presence) s) fun t =>
      if image.getD 0 0 = 0x54 ∧ image.getD 1 0 = 0xC4
          ∧ be16 (image.getD 126 0) (image.getD 127 0) = (crc16 (image.take 126)).toNat
          ∧ image.getD 2 0 ≠ 0xFF
          ∧ 1 ≤ (image.getD 3 0).toNat ∧ (image.getD 3 0).toNat ≤ 16
          ∧ (∀ p : PortId, (image.getD (17 + p.val) 0).toNat < 4 ∨ image.getD (17 + p.val) 0 = 0xFF)
          ∧ (∀ p q : PortId, p ≠ q → image.getD (17 + p.val) 0 = image.getD (17 + q.val) 0 →
              image.getD (17 + p.val) 0 = 0xFF)
          ∧ (∃ p : PortId, image.getD (17 + p.val) 0 ≠ 0xFF)
          ∧ s.nodeId.val < (image.getD 3 0).toNat
      then t.boot = .running else t = { s with boot := .configFail }

/-- R188: at start-up completion every block begins from its reset values under the clamped configuration, the backoff
generator is loaded (R83), the first ticks are a quarter of a tick apart (R155), presence is sampled (R3), and FAULT is
released. -/
def Obligations.StartupCompletionStartsEveryBlock : Prop :=
  ∀ (s : State) (n ms : Nat) (image : List Byte) (presence : BitVec 4),
    s.boot = .reading n ms → image.length = 128 → imageGood image s.nodeId = true →
    Completes (exec (.configReadComplete image presence) s) fun t =>
      t = { State.reset with
              pending := s.pending, choice := s.choice, pins := { s.pins with presence := presence }, coming := s.coming
              resetHold := s.resetHold, boot := .running, nodeId := s.nodeId, cfg := clampImage image, ports := t.ports
              tx := { State.reset.tx with lfsr := t.tx.lfsr }
              curtail := CurtailMonitor.reset (clampImage image).lCfg
              sup := { State.reset.sup with faultPin := false } }
      ∧ (let x := BitVec.ofNat 16 (be16 (image.getD 126 0) (image.getD 127 0)) ^^^ BitVec.ofNat 16 s.nodeId.val
         t.tx.lfsr = if x = 0 then 1 else x)
      ∧ ∀ p : PortId,
          t.ports[p] =
            if (t.cfg.portMap[p]).isSome ∧ presence.getLsbD p.val = true then
              { Port.reset (25 * p.val) with level := true, session := Session.empty .arrived 0 }
            else Port.reset (25 * p.val)

/-- R187, R188, R193: the port map, the feeder id and the clamps of an image, field by field, the clamped flag, and the
solo allowance, which every node of the feeder may fall back to at once within L_cfg − G. -/
def Obligations.ImageFieldsAreClamped : Prop :=
  ∀ image : List Byte,
    let b (i : Nat) : Nat := (image.getD i 0).toNat
    let w (i : Nat) : Nat := b i * 256 + b (i + 1)
    let g := clampImage image
    ToNearest 100 65000 (w 4) g.lCfg ∧ ToNearest 0 (g.lCfg / 4) (w 6) g.guard ∧ ToNearest 10 1000 (w 8) g.dUp
    ∧ ToNearest 10 100 (b 10) g.pc ∧ ToNearest 1 20 (b 12) g.window ∧ ToNearest 100 1000 (w 15) g.vHigh
    ∧ g.vLow = (if w 13 < g.vHigh - 40 then w 13 else g.vHigh - 41)
    ∧ (∀ p : PortId, (g.portMap[p]).isSome = true → ToNearest 100 4000 (w (21 + 2 * p.val)) g.rating[p])
    ∧ (∀ i : Fin 7, ∀ c ∈ allConds[i.val]?,
        allowedResponse c (g.responses.of c) = true
        ∧ g.responses.of c =
            match imageResponse (image.getD (29 + i.val) 0) with
            | some r => if allowedResponse c r then r else ResponseTable.defaults.of c
            | none => ResponseTable.defaults.of c)
    ∧ g.align = (if b 11 = 0 then .continuous else if b 11 = 1 then .once else .monitor)
    ∧ g.alertRoute = decide (b 36 ≠ 0)
    ∧ (g.clamped = true ↔
        g.lCfg ≠ w 4 ∨ g.guard ≠ w 6 ∨ g.dUp ≠ w 8 ∨ g.pc ≠ b 10 ∨ g.window ≠ b 12 ∨ g.vHigh ≠ w 15 ∨ g.vLow ≠ w 13
        ∨ (∃ p : PortId, (g.portMap[p]).isSome = true ∧ g.rating[p] ≠ w (21 + 2 * p.val))
        ∨ (∃ i : Fin 7, ∃ c ∈ allConds[i.val]?, imageResponse (image.getD (29 + i.val) 0) ≠ some (g.responses.of c))
        ∨ 2 < b 11 ∨ 1 < b 36)
    ∧ g.feederId = b 2 ∧ (∀ p : PortId, ∀ pad : PadId, g.portMap[p] = some pad ↔ b (17 + p.val) = pad.val)
    ∧ g.nCfg = b 3 ∧ g.solo = (g.lCfg - g.guard) / g.nCfg
    ∧ (1 ≤ b 3 → b 3 ≤ 16 → 75 ≤ g.lCfg - g.guard ∧ 4 ≤ g.solo ∧ g.nCfg * g.solo ≤ g.lCfg - g.guard)

/-! ### Contact links and sessions (chapters 1 and 2) -/

/-- R4, R5: the presence edges, once the input has held its new level for 50 ms; a shorter excursion and a disabled port
have none. A rise turns VACANT into ARRIVED and is remembered elsewhere; a fall empties an ARRIVED pad, ends an admitted
session with the vehicle-origin clearing (R16) and a restart of the monitors (R160), and leaves OFFLINE. -/
def Obligations.PresenceEdgesMoveThePad : Prop :=
  (∀ (s : State) (p : PortId), s.boot = .running → s.enabled p = true → s.ports[p].level = false →
    s.pins.presence.getLsbD p.val = true → 50 ≤ s.ports[p].change →
    Completes (exec (.presenceRise p) s) fun t =>
      t = { s with ports := s.ports.set p { s.ports[p] with
              level := true, change := 0
              session := { s.ports[p].session with
                state := if s.ports[p].session.state = .vacant then .arrived else s.ports[p].session.state } } })
  ∧ (∀ (s : State) (p : PortId), s.Settled → s.boot = .running → s.enabled p = true → s.ports[p].level = true →
      s.pins.presence.getLsbD p.val = false → 50 ≤ s.ports[p].change →
      Completes (exec (.presenceFall p) s) fun t =>
        OnlyPort s t p ∧ t.ports[p].level = false ∧ t.ports[p].change = 0 ∧ t.ports[p].link = s.ports[p].link
        ∧ (if s.ports[p].session.state.admitted = true then
            t.ports[p].session = Session.empty .vacant s.ports[p].session.errors ∧ t.ports[p].Off ∧ t.Marked p
            ∧ s.ports[p].stage.Restarted t.ports[p].stage
            ∧ t.ports[p].fault.timer = none ∧ t.ports[p].fault.retries = 0
            ∧ (∀ c ∈ allConds, t.ports[p].fault.inForce.get c =
                if vehicleOrigin c then none else s.ports[p].fault.inForce.get c)
          else
            t.ports[p] = { s.ports[p] with
              level := false, change := 0
              session := { s.ports[p].session with
                state := if s.ports[p].session.state = .offline then .offline else .vacant } }))
  ∧ ∀ (s : State) (p : PortId) (up : Bool),
      s.boot ≠ .running ∨ s.enabled p = false ∨ s.ports[p].level = up ∨ s.pins.presence.getLsbD p.val ≠ up
        ∨ s.ports[p].change < 50 →
      Completes (exec (if up = true then .presenceRise p else .presenceFall p) s) fun t => t = s

/-- R6, R7: a malformed record only adds to the contact error count; a record of any kind, malformed or not, that comes
while a reply is being sent is lost, in CONFIG_FAIL too; the end of the reply lets the receiver listen again. -/
def Obligations.MalformedRecordsAreCountedAndRepliesLeave : Prop :=
  (∀ (s : State) (p : PortId), s.boot = .running → s.enabled p = true →
    Completes (exec (.malformedRecord p) s) fun t =>
      t = if s.ports[p].link.reply.isSome = true then s else
        { s with ports := s.ports.set p { s.ports[p] with
            session := { s.ports[p].session with errors := min 255 (s.ports[p].session.errors + 1) } } })
  ∧ (∀ (s : State) (p : PortId) (c : Instr), s.ports[p].link.reply.isSome = true →
      (c = .malformedRecord p ∨ (∃ r : DockRecord, c = .dock p r) ∨ (∃ r : UpdateRecord, c = .update p r)
        ∨ (∃ v : BitVec 32, c = .depart p v) ∨ (∃ k : Byte, c = .unknownKindRecord p k ∧ k ≠ 1 ∧ k ≠ 2 ∧ k ≠ 3)
        ∨ ∃ k : Byte, c = .recordInConfigFail p k) →
      Completes (exec c s) fun t => t = s)
  ∧ ∀ (s : State) (p : PortId) (r : Reply) (age : Nat), s.ports[p].link.reply = some (r, age) →
      Completes (exec (.padReply p) s) fun t =>
        t = { s with ports := s.ports.set p { s.ports[p] with link := ⟨none, some r⟩ } }

/-- R8, R9, R13, R14, R15: a record that gets BAD_REQUEST changes no field of the session but those of the silence watch,
which restarts when a session exists (R7, R19); a CONTACT_LOSS that was present is reported cleared, by which its entry
changes (R172). The reply apart, nothing else of the port changes. -/
def Obligations.BadRequestOnlyRestartsTheWatch : Prop :=
  ∀ (s : State) (p : PortId) (c : Instr), BadRequest s.ports[p].session p c →
    s.Settled → s.FaultsSafe → s.boot = .running → s.ports[p].link.reply = none →
    ∀ pad ∈ s.cfg.portMap[p], Completes (exec c s) fun t =>
      let x := s.ports[p].session
      OnlyPort s t p ∧ t.ports[p].alloc = s.ports[p].alloc ∧ t.ports[p].stage = s.ports[p].stage
      ∧ t.ports[p].level = s.ports[p].level ∧ t.ports[p].change = s.ports[p].change
      ∧ t.ports[p].fault = s.ports[p].faultHeard
      ∧ t.ports[p].session =
          (if x.state.admitted = true then
            { x with lastHeard := some s.now, watch := some s.now, contactLoss := false }
          else x)
      ∧ t.ports[p].link.sent = s.ports[p].link.sent
      ∧ t.ports[p].link.reply = some
          (⟨pad.val, x.state, if x.state.eligible = true then s.ports[p].alloc.command else 0,
            if x.state.admitted = true then x.energy else 0, .badRequest⟩, 0)

/-- R9, R10: a validated DOCK at a pad without a session is refused in OFFLINE, in VACANT, and in ARRIVED while a
stage-origin LATCH is in force; at any other ARRIVED pad it is admitted, into HELD while the pad is held. The command is
not touched and the reply tells the outcome. That an admission into HELD restarts the monitors is the model's reading of
R160 (log 11). -/
def Obligations.DockAtAPadWithoutSessionIsJudged : Prop :=
  (∀ (s : State) (p : PortId) (r : DockRecord), r.cls.toNat ≤ 3 → r.maxPower ≠ 0 →
    s.Settled → s.boot = .running → s.ports[p].link.reply = none →
    ∀ pad ∈ s.cfg.portMap[p], ∀ reason : Reason,
    (s.ports[p].session.state = .offline ∧ reason = .offline
      ∨ s.ports[p].session.state = .vacant ∧ reason = .noPresence
      ∨ s.ports[p].session.state = .arrived ∧ reason = .fault
        ∧ ∃ c ∈ [Cond.stageFault, .busLow, .busHigh], ∃ e ∈ s.ports[p].fault.inForce.get c, e.response = .latch) →
    Completes (exec (.dock p r) s) fun t =>
      OnlyPort s t p
      ∧ t.ports[p] = { s.ports[p] with link := { s.ports[p].link with
          reply := some (⟨pad.val, s.ports[p].session.state, 0, 0, reason⟩, 0) } })
  ∧ ∀ (s : State) (p : PortId) (r : DockRecord), r.cls.toNat ≤ 3 → r.maxPower ≠ 0 →
      s.Settled → s.boot = .running → s.ports[p].link.reply = none → s.ports[p].session.state = .arrived →
      s.ports[p].fault.inForce.stageLatched = false →
      ∀ pad ∈ s.cfg.portMap[p], Completes (exec (.dock p r) s) fun t =>
        let x := admission r s.cfg.rating[p] s.ports[p].session.errors s.now s.ports[p].fault.held
        OnlyPort s t p ∧ t.ports[p].session = x ∧ t.ports[p].alloc = s.ports[p].alloc
        ∧ (s.ports[p].fault.held = false →
            t.ports[p].stage = s.ports[p].stage ∧ t.ports[p].fault = s.ports[p].fault)
        ∧ (s.ports[p].fault.held = true → s.ports[p].stage.Restarted t.ports[p].stage)
        ∧ t.ports[p].link.reply = some
            (⟨pad.val, x.state, if x.state = .waiting then s.ports[p].alloc.command else 0, x.energy,
              if x.state = .held then .fault else .ok⟩, 0)

/-- R9, R11, R13, R29: a validated DOCK with the session's own vehicle id replaces the request; an UPDATE keeps what it
does not carry, and its maximum power clears the cap. Both keep the vehicle, the error count, a hold, the retry count and
the in-force set, but for a CONTACT_LOSS that clears (R19). That an eligible session keeps the state its latest send gave
it is the model's reading of R11 (log 13). -/
def Obligations.DockAndUpdateRewriteTheSession : Prop :=
  (∀ (s : State) (p : PortId) (r : DockRecord), r.cls.toNat ≤ 3 → r.maxPower ≠ 0 →
    s.Settled → s.FaultsSafe → s.boot = .running → s.ports[p].link.reply = none →
    s.ports[p].session.state.admitted = true → s.ports[p].session.vehicle = r.vehicle →
    ∀ pad ∈ s.cfg.portMap[p], Completes (exec (.dock p r) s) fun t =>
      let x := s.ports[p].session
      let energy := min r.energy.toNat 20000
      let pMax := min r.maxPower.toNat s.cfg.rating[p]
      let timeLeft := r.deadline.map BitVec.toNat
      Rewritten s t p pad
        { x with
          state := stateAgain x.state energy, cls := r.cls.toNat, energy := energy, acc := 0, timeLeft := timeLeft
          pMax := pMax, pMin := r.minPower.map fun m => min m.toNat pMax, cap := none
          urgency := urgencyOf timeLeft energy pMax, overdue := overdueOf timeLeft energy
          lastHeard := some s.now, watch := some s.now, contactLoss := false })
  ∧ ∀ (s : State) (p : PortId) (r : UpdateRecord), r.maxPower ≠ some 0 →
      s.Settled → s.FaultsSafe → s.boot = .running → s.ports[p].link.reply = none →
      s.ports[p].session.state.admitted = true →
      ∀ pad ∈ s.cfg.portMap[p], Completes (exec (.update p r) s) fun t =>
        let x := s.ports[p].session
        let energy := min r.energy.toNat 20000
        let timeLeft := match r.deadline with | some d => some d.toNat | none => x.timeLeft
        let pMax := match r.maxPower with | some m => min m.toNat s.cfg.rating[p] | none => x.pMax
        Rewritten s t p pad
          { x with
            state := stateAgain x.state energy, energy := energy, acc := 0, timeLeft := timeLeft, pMax := pMax
            pMin := if r.maxPower.isSome = true then x.pMin.map fun m => min m pMax else x.pMin
            cap := if r.maxPower.isSome = true then none else x.cap
            urgency := urgencyOf timeLeft energy pMax, overdue := overdueOf timeLeft energy
            lastHeard := some s.now, watch := some s.now, contactLoss := false }

/-- R12, R14, R16, R160, R175: a DEPART with the session's vehicle id ends it: the record is cleared but for the error
count, the vehicle-origin entries, the timer and the retry count go, the monitors restart, and the reply is OK, ARRIVED,
0, 0. A validated DOCK with another vehicle id ends the session in the same way first and is then judged as at an
ARRIVED pad. -/
def Obligations.DepartAndAnotherVehicleEndTheSession : Prop :=
  (∀ (s : State) (p : PortId) (v : BitVec 32), s.Settled → s.boot = .running → s.ports[p].link.reply = none →
    s.ports[p].session.state.admitted = true → s.ports[p].session.vehicle = v →
    ∀ pad ∈ s.cfg.portMap[p], Completes (exec (.depart p v) s) fun t =>
      OnlyPort s t p ∧ t.ports[p].session = Session.empty .arrived s.ports[p].session.errors
      ∧ t.ports[p].Off ∧ t.Marked p ∧ s.ports[p].stage.Restarted t.ports[p].stage
      ∧ t.ports[p].alloc.grant = s.ports[p].alloc.grant
      ∧ t.ports[p].alloc.settled = s.ports[p].alloc.settled
      ∧ t.ports[p].fault.timer = none ∧ t.ports[p].fault.retries = 0
      ∧ (∀ c ∈ allConds, t.ports[p].fault.inForce.get c =
          if vehicleOrigin c then none else s.ports[p].fault.inForce.get c)
      ∧ t.ports[p].link.reply = some (⟨pad.val, .arrived, 0, 0, .ok⟩, 0))
  ∧ ∀ (s : State) (p : PortId) (r : DockRecord), r.cls.toNat ≤ 3 → r.maxPower ≠ 0 →
      s.Settled → s.FaultsSafe → s.boot = .running → s.ports[p].link.reply = none →
      s.ports[p].session.state.admitted = true → s.ports[p].session.vehicle ≠ r.vehicle →
      ∀ pad ∈ s.cfg.portMap[p], Completes (exec (.dock p r) s) fun t =>
        let x := if s.ports[p].fault.inForce.stageLatched then Session.empty .arrived s.ports[p].session.errors
          else admission r s.cfg.rating[p] s.ports[p].session.errors s.now t.ports[p].fault.held
        OnlyPort s t p ∧ t.ports[p].session = x ∧ t.ports[p].Off ∧ t.Marked p
        ∧ s.ports[p].stage.Restarted t.ports[p].stage
        ∧ t.ports[p].fault.timer = none ∧ t.ports[p].fault.retries = 0
        ∧ (∀ c ∈ allConds, t.ports[p].fault.inForce.get c =
            if vehicleOrigin c then none else s.ports[p].fault.inForce.get c)
        ∧ t.ports[p].link.reply = some
            (⟨pad.val, x.state, 0, x.energy, if x.state = .arrived ∨ x.state = .held then .fault else .ok⟩, 0)

/-- R15: in CONFIG_FAIL every contact link answers an accepted record, whatever the port map: FAULT for a DOCK,
BAD_REQUEST for any other kind, with the physical port, VACANT, 0 and 0. -/
def Obligations.ConfigFailAnswersEveryRecord : Prop :=
  ∀ (s : State) (p : PortId) (c : Instr) (reason : Reason), s.boot = .configFail → s.ports[p].link.reply = none →
    ((∃ r : DockRecord, c = .dock p r) ∧ reason = .fault
      ∨ (∃ r : UpdateRecord, c = .update p r) ∧ reason = .badRequest
      ∨ (∃ v : BitVec 32, c = .depart p v) ∧ reason = .badRequest
      ∨ (∃ k : Byte, c = .unknownKindRecord p k ∧ k ≠ 1 ∧ k ≠ 2 ∧ k ≠ 3) ∧ reason = .badRequest
      ∨ c = .recordInConfigFail p 1 ∧ reason = .fault
      ∨ (∃ k : Byte, c = .recordInConfigFail p k ∧ k ≠ 1) ∧ reason = .badRequest) →
    Completes (exec c s) fun t =>
      t = { s with ports := s.ports.set p { s.ports[p] with link := { s.ports[p].link with
              reply := some (⟨p.val, .vacant, 0, 0, reason⟩, 0) } } }

/-- R19, R160, R170, R173: 6 s of silence raise CONTACT_LOSS under its configured response and restart the watch; a
holding response that takes force on a pad that was not held puts the session in HELD, takes its power away at once and
restarts the monitors. -/
def Obligations.ContactLossIsRaisedUnderItsResponse : Prop :=
  ∀ (s : State) (p : PortId), s.Settled → s.FaultsSafe → s.boot = .running → s.enabled p = true →
    s.ports[p].session.state.admitted = true → Completes (exec (.contactLoss p) s) fun t =>
      let f := s.ports[p].fault
      let configured := s.cfg.responses.contactLoss
      let response := if retrying configured = true ∧ 3 ≤ f.retries then .latch
        else ((f.inForce.get .contactLoss).map Entry.response).getD configured
      OnlyPort s t p
      ∧ t.ports[p].session = { s.ports[p].session with
          state := if holding response = true then .held else s.ports[p].session.state
          contactLoss := true, watch := some s.now }
      ∧ t.ports[p].fault.inForce.get .contactLoss = some ⟨response, true⟩
      ∧ t.ports[p].fault.retries = f.retries
      ∧ (response = .latch → t.ports[p].fault.timer = none)
      ∧ (retrying response = true → (f.inForce.any fun e => e.response == .latch) = false →
          t.ports[p].fault.timer = some (max 5000 (f.timer.getD 0)))
      ∧ (holding response = true → f.held = false →
          t.ports[p].Off ∧ t.Marked p ∧ s.ports[p].stage.Restarted t.ports[p].stage)

/-- R170 to R172: a raise sets the presence mark of the condition's entry and, by the response, makes an entry, stops the
timer (LATCH), sets it (a retry response below three retries, with no LATCH in force: it starts, or goes up to the retry
time), or escalates to LATCH. A clear removes a REPORT or HOLD_WHILE entry and takes the presence mark off any other. No
other entry changes, and no retry is counted. -/
def Obligations.RaisesAndClearsFollowTheResponse : Prop :=
  ∀ (f : PadFault) (c : Cond) (r : Response),
    let e := f.inForce.get c
    let made := match e with
      | some x => some { x with present := true }
      | none => some ⟨r, true⟩
    let g := f.raise c r
    let latched := ∃ k ∈ allConds, ∃ x ∈ g.inForce.get k, x.response = .latch
    g.retries = f.retries ∧ (∀ k ∈ allConds, k ≠ c → g.inForce.get k = f.inForce.get k)
    ∧ (match r with
        | .ignore => g.inForce.get c = e.map (fun x => { x with present := true }) ∧ g.timer = f.timer
        | .report | .holdWhile => g.inForce.get c = made ∧ g.timer = f.timer
        | .latch => g.inForce.get c = made ∧ g.timer = none
        | .retryLong | .retryShort =>
          if 3 ≤ f.retries then g.inForce.get c = some ⟨.latch, true⟩ ∧ g.timer = none
          else g.inForce.get c = made ∧
            (if latched then g.timer = f.timer
             else g.timer = some (max (if r = .retryLong then 30000 else 5000) (f.timer.getD 0))))
    ∧ f.clear c =
        match e with
        | none => f
        | some x =>
          let left := if x.response = .report ∨ x.response = .holdWhile then none else some { x with present := false }
          { f with inForce := f.inForce.put c left }

/-- R28, R30, R33: at a second mark every admitted session whose T is present and above 0 has T reduced by 1, with its
overdue flag and urgency judged again; nothing else changes. -/
def Obligations.SecondMarkCountsDown : Prop :=
  ∀ s : State, s.boot = .running → Completes (exec .secondMark s) fun t =>
    t = { s with ports := t.ports } ∧ ∀ p : PortId,
      t.ports[p] = { s.ports[p] with session :=
        let x := s.ports[p].session
        match x.timeLeft with
        | some (n + 1) =>
          if s.enabled p = true ∧ x.state.admitted = true then
            { x with timeLeft := some n, overdue := decide (n = 0 ∧ 0 < x.energy)
                     urgency := urgencyOf (some n) x.energy x.pMax }
          else x
        | _ => x }

/-- R30, R32, R33: U by the first case that applies. It lies in 0 to 255, is 255 exactly when the session is overdue, and
is 0 without a deadline or without energy to come. -/
def Obligations.UrgencyIsByTheFirstCase : Prop :=
  ∀ (t : Option Nat) (e pMax : Nat), 1 ≤ pMax →
    (t = none ∨ e = 0 → urgencyOf t e pMax = 0)
    ∧ (t = some 0 → 0 < e → urgencyOf t e pMax = 255)
    ∧ (∀ n ∈ t, 0 < n → 0 < e → ∃ q : Nat, q * n < e * 3600 + n ∧ e * 3600 ≤ q * n
        ∧ (254 ≤ q * 200 / pMax → urgencyOf t e pMax = 254)
        ∧ (q * 200 / pMax < 254 → urgencyOf t e pMax * pMax ≤ q * 200 ∧ q * 200 < (urgencyOf t e pMax + 1) * pMax))
    ∧ urgencyOf t e pMax ≤ 255 ∧ (urgencyOf t e pMax = 255 ↔ overdueOf t e = true)

/-! ### The line and the Receive Queue (chapters 3 and 4) -/

/-- R47 to R52, R54: a good frame that is foreign, whatever its sender, or that another station's qualifies while the line
is not IN_STEP. A foreign one is counted and steadies the error monitor; a qualifying one starts TRIAL, counts in it, and
the fourth brings the line IN_STEP with an ANNOUNCE, the listen span and ONCE alignment re-armed. -/
def Obligations.GoodFramesBringTheLineInStep : Prop :=
  ∀ (s : State) (f : Frame) (age : Nat), f.wellFormed = true → age ≤ maxFrameAge →
    s.Settled → s.boot = .running → s.tx.onLine = none →
    (f.feeder.toNat ≠ s.cfg.feederId ∧ f.feeder ≠ 0xFF →
      Completes (exec (.frameGood f age) s) fun t =>
        t = { s with
          line := { s.line with stamp := t.line.stamp, foreign := min 255 (s.line.foreign + 1)
                                errors := if s.line.acq = .inStep then s.line.errors - 1 else s.line.errors }
          tx := { s.tx with quiet := 7 }
          sup := { s.sup with faultPin := s.faultRule, alertPin := s.alertRule } })
    ∧ (f.sender.toNat ≠ s.nodeId.val → f.feeder.toNat = s.cfg.feederId ∨ f.feeder = 0xFF → s.line.acq ≠ .inStep →
      Completes (exec (.frameGood f age) s) fun t =>
        t = { s with choice := t.choice, line := t.line, tx := { s.tx with quiet := 7, status := t.tx.status
                                                                           announce := t.tx.announce }
                     round := { s.round with once := t.round.once }, sup := t.sup }
        ∧ t.line.heard = (decide (1 < s.cfg.nCfg) || s.line.heard) ∧ t.line.queue = s.line.queue
        ∧ (if s.line.acq = .trial ∧ 3 ≤ s.line.trial then
            t.line.acq = .inStep ∧ t.line.trial = 0 ∧ t.line.errors = 0 ∧ t.line.silence = 0 ∧ t.line.span = some 0
            ∧ t.line.announce = 0 ∧ t.round.once = .aligning ∧ t.sup.current.lineInStep = true
            ∧ t.tx.announce = some (⟨s.cfg.lCfg, s.cfg.guard, s.cfg.nCfg, s.cfg.pc, s.cfg.align, s.cfg.clamped,
                (List.finRange 4).countP fun p => s.enabled p && s.ports[p].session.state != .offline⟩, 0)
          else
            t.line = { s.line with acq := .trial, heard := t.line.heard, stamp := t.line.stamp
                                   trial := if s.line.acq = .hunt then 1 else s.line.trial + 1 }
            ∧ t.tx.announce = s.tx.announce ∧ t.round.once = s.round.once))

/-- R43, R51, R64, R65: in step, a qualifying frame of another station is delivered with its SOF stamp: appended while the
queue holds fewer than three entries, else in place of the newest, marked and counted. That the stamp is taken from the
frame's age of at most 6 ms, with the count of the round before for an SOF before the boundary, is the model's way to say
R43 (log 14). -/
def Obligations.QualifyingFramesAreQueuedInStep : Prop :=
  ∀ (s : State) (f : Frame) (age : Nat), f.wellFormed = true → age ≤ maxFrameAge →
    s.Settled → s.boot = .running → s.tx.onLine = none → s.line.acq = .inStep → f.sender.toNat ≠ s.nodeId.val →
    (f.feeder.toNat = s.cfg.feederId ∨ f.feeder = 0xFF) →
    Completes (exec (.frameGood f age) s) fun t =>
      let full := 3 ≤ s.line.queue.length
      t = { s with line := t.line, tx := { s.tx with quiet := 7 }
                   sup := { s.sup with faultPin := s.faultRule, alertPin := s.alertRule } }
      ∧ t.line = { s.line with
          stamp := t.line.stamp, heard := decide (1 < s.cfg.nCfg) || s.line.heard, errors := s.line.errors - 1
          queue := (if full then s.line.queue.dropLast else s.line.queue) ++ [⟨f, decide full, t.line.stamp⟩]
          overruns := if full then min 255 (s.line.overruns + 1) else s.line.overruns }
      ∧ (age ≤ s.round.phase → t.line.stamp = ⟨s.round.phase - age, s.round.count⟩)
      ∧ (s.round.phase < age → t.line.stamp.count = (s.round.count + 255) % 256)

/-- R48 to R52, R54, R99, R151, R152: a qualifying frame that carries the own id is not delivered; it counts for
acquisition, for the heard mark and toward the error monitor; it latches DUPLICATE_ID, which asserts FAULT and makes the
node SOLO; a fall from COORDINATED starts the solo compute, or has it remembered. -/
def Obligations.OwnIdFrameLatchesDuplicateId : Prop :=
  ∀ (s : State) (f : Frame) (age : Nat), f.wellFormed = true → age ≤ maxFrameAge →
    s.Settled → s.boot = .running → s.tx.onLine = none → f.sender.toNat = s.nodeId.val →
    (f.feeder.toNat = s.cfg.feederId ∨ f.feeder = 0xFF) →
    Completes (exec (.frameGood f age) s) fun t =>
      t.duplicateId = true ∧ t.curtail = { s.curtail with mode := .solo } ∧ t.sup.faultPin = true
      ∧ t.peers = s.peers ∧ t.cfg = s.cfg ∧ t.badKind = s.badKind
      ∧ t.tx = { s.tx with quiet := 7, status := t.tx.status, announce := t.tx.announce }
      ∧ (let l := { s.line with stamp := t.line.stamp, heard := decide (1 < s.cfg.nCfg) || s.line.heard }
         if s.line.acq = .trial ∧ 3 ≤ s.line.trial then
           t.line = { l with acq := .inStep, trial := 0, errors := 0, silence := 0, span := some 0, announce := 0 }
           ∧ t.tx.announce.isSome = true ∧ t.round = { s.round with once := .aligning }
           ∧ t.sup.current.lineInStep = true
         else
           t.line = (match s.line.acq with
             | .hunt => { l with acq := .trial, trial := 1 }
             | .trial => { l with trial := s.line.trial + 1 }
             | .inStep => { l with errors := s.line.errors - 1 })
           ∧ t.tx.announce = s.tx.announce ∧ t.round = s.round)
      ∧ (s.curtail.mode = .solo → t.engine = s.engine ∧ t.ports = s.ports)
      ∧ (s.curtail.mode = .coordinated → s.engine.inFlight.isSome = true →
          t.engine = { s.engine with request := true } ∧ t.ports = s.ports)
      ∧ (s.curtail.mode = .coordinated → s.engine.inFlight = none →
          t.engine.inFlight.map (fun c => (c.kind, c.mode, c.budget)) = some (.outOfRound, .solo, t.soloBudget)
          ∧ State.Started s t .outOfRound)

/-- R44, R47, R50, R51, R53: a bad frame is counted; in TRIAL it returns the line to HUNT, in step it raises the error
monitor, and the ones in a row that the line has shown count as quiet (R77): that a frame that is too long shows none,
as a 0 past 261 bytes is what ends it, is the model's reading (logs 15 and 25). At 16 the line drops: the queue and the
Curtail Set are emptied, every heard peer is LOST (at once while no compute is in flight, R103), and the node is SOLO; a
fall from COORDINATED starts the solo compute or has it remembered (R152), and no notice of the transmitter is touched
(R86). An aborted frame is counted and does nothing else. -/
def Obligations.BadAndAbortedFramesAreJudged : Prop :=
  (∀ (s : State) (cause : BadCause) (age : Nat), age ≤ maxFrameAge →
    s.Settled → s.boot = .running → s.tx.onLine = none →
    let ones : Nat := match cause with
      | .sixOnes | .tooLong => 0
      | .sixZeros => 1
      | .badEnd => 7
      | .bareEnd => 8
    (s.line.acq = .hunt ∨ (s.line.acq = .inStep ∧ s.line.errors < 15) →
      Completes (exec (.frameBad cause age) s) fun t =>
        t = { s with
          line := { s.line with stamp := t.line.stamp, bad := min 255 (s.line.bad + 1)
                                errors := if s.line.acq = .inStep then s.line.errors + 1 else s.line.errors }
          tx := { s.tx with quiet := ones }
          sup := { s.sup with faultPin := s.faultRule, alertPin := s.alertRule } })
    ∧ (s.line.acq = .trial ∨ (s.line.acq = .inStep ∧ 15 ≤ s.line.errors) →
      Completes (exec (.frameBad cause age) s) fun t =>
        t.line = { Line.reset with
          announce := if s.line.acq = .inStep then 0 else s.line.announce, stamp := t.line.stamp
          bad := min 255 (s.line.bad + 1), aborted := s.line.aborted, foreign := s.line.foreign
          overruns := s.line.overruns }
        ∧ (∀ id : NodeId, t.curtail.set[id] = none) ∧ t.curtail.target = t.curtailTarget
        ∧ t.curtail.ceiling = min s.curtail.ceiling t.curtail.target ∧ t.curtail.localForce = s.curtail.localForce
        ∧ t.curtail.mode = .solo ∧ t.sup.current.lineInStep = false ∧ t.duplicateId = s.duplicateId
        ∧ t.round = s.round ∧ t.badKind = s.badKind ∧ t.cfg = s.cfg
        ∧ t.tx = { s.tx with quiet := ones, status := t.tx.status }
        ∧ (t.sup.latched = s.sup.latched → t.tx.status = s.tx.status)
        ∧ (s.curtail.mode = .coordinated → s.engine.inFlight = none →
            t.engine = { s.engine with inFlight := t.engine.inFlight }
            ∧ State.Started s t .outOfRound
            ∧ t.engine.inFlight.map (fun c => (c.kind, c.mode, c.budget, c.elapsed))
              = some (.outOfRound, .solo, t.soloBudget, 0))
        ∧ (s.curtail.mode = .solo ∨ s.engine.inFlight.isSome = true → t.ports = s.ports
            ∧ t.engine = { s.engine with
                huntPending := s.engine.inFlight.isSome || s.engine.huntPending
                request := decide (s.curtail.mode = .coordinated) || s.engine.request })
        ∧ (s.engine.inFlight = none → ∀ id : NodeId, t.peers[id] =
            if s.peers[id].heard = true ∧ id ≠ s.nodeId then
              { s.peers[id] with age := 4, claim := none, phaseErr := none }
            else { s.peers[id] with phaseErr := none })
        ∧ (s.engine.inFlight.isSome = true → t.engine.huntPending = true ∧ ∀ id : NodeId,
            t.peers[id] = { s.peers[id] with phaseErr := none })))
  ∧ ∀ (s : State) (age : Nat), age ≤ maxFrameAge → s.boot = .running → s.tx.onLine = none →
      Completes (exec (.frameAborted age) s) fun t =>
        t = { s with line := { s.line with stamp := t.line.stamp, aborted := min 255 (s.line.aborted + 1) }
                     tx := { s.tx with quiet := 0 } }

/-- R58, R67, R69, R72, R191: a notice that fails a check is discarded whole and counted, and touches nothing else. The
checks: a kind that is none of the five, a node kind from an observer id or with feeder id 0xFF, a DIRECTIVE from a node
id, a body of another length than its kind's, and a field outside its range. That the check covers every field with a
range, the STATUS ones too, is the model's choice (log 16). Another node's directive is discarded uncounted (R72). -/
def Obligations.RejectedNoticesAreOnlyCounted : Prop :=
  (∀ s : State, s.boot = .running → s.engine.inFlight = none → ∀ q ∈ s.line.queue.head?, checkNotice q.notice = none →
    Completes (exec .noticeRejected s) fun t =>
      t = { s with line := { s.line with queue := s.line.queue.tail }, badKind := min 255 (s.badKind + 1) })
  ∧ (∀ f : Frame,
      (f.kind ≠ 0x11 ∧ f.kind ≠ 0x12 ∧ f.kind ≠ 0x13 ∧ f.kind ≠ 0x14 ∧ f.kind ≠ 0x21)
      ∨ (f.kind ≠ 0x21 ∧ (16 ≤ f.sender.toNat ∨ f.feeder = 0xFF))
      ∨ (f.kind = 0x21 ∧ (f.sender.toNat < 16 ∨ 31 < f.sender.toNat)) → checkNotice f = none)
  ∧ (∀ f : Frame,
      let length := f.body.length
      let b (i : Nat) : Nat := (f.body.getD i 0).toNat
      let w (i : Nat) : Nat := b i * 256 + b (i + 1)
      (f.kind = 0x11 ∧
          (length ≠ 6 + 10 * b 5 ∨ 4 < b 5 ∨ b 0 % 4 = 0 ∨ b 0 % 4 = 3 ∨ 749 < w 1 ∨ 16000 < w 3
            ∨ (∃ i j : Fin 4, i < j ∧ j.val < b 5 ∧ b (6 + 10 * i.val) % 4 = b (6 + 10 * j.val) % 4)
            ∨ ∃ i : Fin 4, i.val < b 5 ∧ (w (10 + 10 * i.val) < w (8 + 10 * i.val) ∨ 4000 < w (14 + 10 * i.val))))
      ∨ (f.kind = 0x12 ∧
          (length ≠ 8 ∨ w 0 < 100 ∨ 65000 < w 0 ∨ w 0 / 4 < w 2 ∨ b 4 = 0 ∨ 16 < b 4 ∨ b 5 < 10 ∨ 100 < b 5
            ∨ b 6 % 4 = 3 ∨ 4 < b 7))
      ∨ (f.kind = 0x13 ∧
          (length ≠ 38 ∨ 6 < b 1 ∨ (249 < w 5 ∧ w 5 < 65536 - 250)
            ∨ ∃ i : Fin 4, b (7 + 6 * i.val) % 8 = 7 ∨ 5 < b (7 + 6 * i.val) / 16 % 8 ∨ 3 < b (11 + 6 * i.val)))
      ∨ (f.kind = 0x14 ∧ (length ≠ 2 ∨ b 0 = 0 ∨ 2 < b 0 ∨ b 1 < 10 ∨ 100 < b 1))
      ∨ (f.kind = 0x21 ∧ (length ≠ 3 ∨ b 1 = 0 ∨ 3 < b 1 ∨ (15 < b 0 ∧ b 0 ≠ 31))) → checkNotice f = none)
  ∧ ∀ (s : State) (d : Directive), s.boot = .running → s.engine.inFlight = none → d.target ≠ s.nodeId.val →
      d.target ≠ 31 → (∃ q ∈ s.line.queue.head?, checkNotice q.notice = some (.directive d)) →
      Completes (exec (match d.action with
          | .clear => .directiveClear
          | .padOffline => .directivePadOffline
          | .padOnline => .directivePadOnline) s) fun t =>
        t = { s with line := { s.line with queue := s.line.queue.tail } }

/-! ### The Peer Table (chapter 6) -/

/-- R89: the state of an entry other than SELF is the first of the eight orders that applies. That a fresh entry holds a
claim is the property of PeerTableStaysKept. -/
def Obligations.EntryStateIsTheFirstThatApplies : Prop :=
  ∀ s : State, s.PeersKept → ∀ id : NodeId,
    let e := s.peers[id]
    let differs := ∃ f ∈ e.fingerprint, f.lCfg ≠ s.cfg.lCfg ∨ f.guard ≠ s.cfg.guard ∨ f.nCfg ≠ s.cfg.nCfg
    let claims (m : NodeMode) := ∃ c ∈ e.claim, c.mode = m
    (s.peerState id = .self ↔ id = s.nodeId)
    ∧ (s.peerState id = .unheard ↔ id ≠ s.nodeId ∧ e.heard = false)
    ∧ (s.peerState id = .lost ↔ id ≠ s.nodeId ∧ e.heard = true ∧ 4 ≤ e.age)
    ∧ (s.peerState id = .incompatible ↔ id ≠ s.nodeId ∧ e.heard = true ∧ e.age < 4
        ∧ (s.cfg.nCfg ≤ id.val ∨ (e.dupMark = false ∧ differs)))
    ∧ (s.peerState id = .duplicate ↔ id ≠ s.nodeId ∧ e.heard = true ∧ e.age < 4 ∧ id.val < s.cfg.nCfg ∧ e.dupMark = true)
    ∧ (s.peerState id = .stale ↔ id ≠ s.nodeId ∧ e.heard = true ∧ 2 ≤ e.age ∧ e.age < 4 ∧ id.val < s.cfg.nCfg
        ∧ e.dupMark = false ∧ ¬ differs)
    ∧ (s.peerState id = .solo ↔ id ≠ s.nodeId ∧ e.heard = true ∧ e.age < 2 ∧ id.val < s.cfg.nCfg ∧ e.dupMark = false
        ∧ ¬ differs ∧ claims .solo)
    ∧ (s.peerState id = .live ↔ id ≠ s.nodeId ∧ e.heard = true ∧ e.age < 2 ∧ id.val < s.cfg.nCfg ∧ e.dupMark = false
        ∧ ¬ differs ∧ claims .coordinated)

/-- R71, R90, R94, R96 to R98, R101, R108, R150: a drained CLAIM replaces the sender's stored claim and draw, refreshes
its age, and sets its phase error, the claim's phase minus the stamp's brought into -250 to 249, when the stamp is usable.
A drained ANNOUNCE stores the sender's fingerprint and leaves the rest of the entry, with L_low, CONFIG_CONFLICT and
CEILING_REDUCED judged again; a drained STATUS sets or clears the duplicate mark alone. A raised contribution, or a
lowered L_low, starts an out-of-round compute. -/
def Obligations.DrainedNoticesWriteTheirSendersEntry : Prop :=
  (∀ s : State, s.Settled → s.boot = .running → s.engine.inFlight = none →
    ∀ q ∈ s.line.queue.head?, ∀ (j : NodeId) (c : Claim), checkNotice q.notice = some (.claim j c) → j ≠ s.nodeId →
    Completes (exec .drainClaim s) fun t =>
      t = { s with ports := t.ports, line := { s.line with queue := s.line.queue.tail }, peers := t.peers
                   engine := t.engine, sup := t.sup }
      ∧ t.peers = s.peers.set j
          { s.peers[j] with
            heard := true, age := 0, draw := c.draw
            claim := some ⟨c.mode, c.entries.map fun e => ⟨e.pad, e.cls, e.urgency, e.floor, e.ask, e.intent⟩⟩
            phaseErr := if q.stamp.count = s.round.count ∧ q.overrun = false
              then some (phaseError c.phase q.stamp.phase) else none }
      ∧ (c.phase ≤ 749 ∧ (q.stamp.phase ≤ 749 → ∀ e ∈ t.peers[j].phaseErr, -250 ≤ e ∧ e ≤ 249
          ∧ (e = (c.phase : Int) - q.stamp.phase ∨ e = (c.phase : Int) - q.stamp.phase - 500
            ∨ e = (c.phase : Int) - q.stamp.phase + 500)))
      ∧ (t.sup.conflict = true ↔ ∃ id : NodeId, t.peerState id = .incompatible)
      ∧ StartedIf s t (s.contribution j < t.contribution j))
  ∧ (∀ s : State, s.Settled → s.boot = .running → s.engine.inFlight = none →
    ∀ q ∈ s.line.queue.head?, ∀ (j : NodeId) (a : Announce), checkNotice q.notice = some (.announce j a) → j ≠ s.nodeId →
    Completes (exec .drainAnnounce s) fun t =>
      t = { s with choice := t.choice, ports := t.ports, line := { s.line with queue := s.line.queue.tail }
                   tx := { s.tx with status := t.tx.status }, peers := t.peers, engine := t.engine, sup := t.sup }
      ∧ t.peers = s.peers.set j { s.peers[j] with fingerprint := some ⟨a.lCfg, a.guard, a.nCfg⟩ }
      ∧ (t.sup.conflict = true ↔ ∃ id : NodeId, t.peerState id = .incompatible)
      ∧ (t.sup.current.ceilingReduced = true ↔ s.curtail.ceiling < s.cfg.lCfg ∨ t.lLow < s.cfg.lCfg)
      ∧ StartedIf s t (s.contribution j < t.contribution j ∨ t.lLow < s.lLow))
  ∧ ∀ s : State, s.Settled → s.boot = .running → s.engine.inFlight = none →
    ∀ q ∈ s.line.queue.head?, ∀ (j : NodeId) (dup : Bool), checkNotice q.notice = some (.status j dup) → j ≠ s.nodeId →
    Completes (exec .drainStatus s) fun t =>
      t = { s with ports := t.ports, line := { s.line with queue := s.line.queue.tail }, peers := t.peers
                   engine := t.engine, sup := t.sup }
      ∧ t.peers = s.peers.set j { s.peers[j] with dupMark := dup }
      ∧ (t.sup.conflict = true ↔ ∃ id : NodeId, t.peerState id = .incompatible)
      ∧ StartedIf s t (s.contribution j < t.contribution j)

/-- R97, R100, R147: each entry contributes to the reserve by its state, and the reserve is the sum of the 16
contributions; L_low is the lowest L_cfg among the own value and every stored fingerprint; the target is ⌊L_cfg × P / 100⌋
for the lowest percent P in force, and L_cfg when none is. -/
def Obligations.ReserveLimitAndPercentFollowTheirTables : Prop :=
  ∀ s : State,
    (s.reserve = ((List.finRange 16).map s.contribution).sum
      ∧ ∀ id : NodeId, s.contribution id =
          match s.peerState id with
          | .self | .live | .stale => 0
          | .unheard | .lost => if id.val < s.cfg.nCfg then s.cfg.solo else 0
          | .solo => s.cfg.solo
          | .incompatible => max s.cfg.solo s.peers[id].draw
          | .duplicate => 2 * s.cfg.solo)
    ∧ (s.lLow ≤ s.cfg.lCfg ∧ (∀ id : NodeId, ∀ f ∈ s.peers[id].fingerprint, s.lLow ≤ f.lCfg)
      ∧ (s.lLow = s.cfg.lCfg ∨ ∃ id : NodeId, ∃ f ∈ s.peers[id].fingerprint, s.lLow = f.lCfg))
    ∧ (s.curtail.localForce = false → (∀ id : NodeId, s.curtail.set[id] = none) → s.curtailTarget = s.cfg.lCfg)
    ∧ (s.curtail.localForce = true → s.curtailTarget ≤ s.cfg.lCfg * s.cfg.pc / 100)
    ∧ (∀ id : NodeId, ∀ e ∈ s.curtail.set[id], s.curtailTarget ≤ s.cfg.lCfg * e.percent / 100)
    ∧ (s.curtail.localForce = true ∨ (∃ id : NodeId, (s.curtail.set[id]).isSome = true) →
        (s.curtail.localForce = true ∧ s.curtailTarget = s.cfg.lCfg * s.cfg.pc / 100)
        ∨ ∃ id : NodeId, ∃ e ∈ s.curtail.set[id], s.curtailTarget = s.cfg.lCfg * e.percent / 100)

/-- R145, R147, R150: a drained CURTAIL inserts, refreshes or removes its sender's entry; the target follows the lowest
percent in force and the ceiling falls to it at once; a fall, or the first entry of an empty set, starts a compute. -/
def Obligations.DrainedCurtailMovesTheCeiling : Prop :=
  ∀ s : State, s.Settled → s.boot = .running → s.engine.inFlight = none →
    ∀ q ∈ s.line.queue.head?, ∀ (j : NodeId) (c : Curtail), checkNotice q.notice = some (.curtail j c) →
    Completes (exec .drainCurtail s) fun t =>
      t = { s with choice := t.choice, ports := t.ports, line := { s.line with queue := s.line.queue.tail }
                   tx := { s.tx with status := t.tx.status }, curtail := t.curtail, engine := t.engine, sup := t.sup }
      ∧ t.curtail = { s.curtail with
          set := s.curtail.set.set j (if c.assert = true then some ⟨c.percent, 0⟩ else none)
          target := t.curtailTarget, ceiling := min s.curtail.ceiling t.curtailTarget }
      ∧ (t.sup.current.ceilingReduced = true ↔ t.curtail.ceiling < s.cfg.lCfg ∨ s.lLow < s.cfg.lCfg)
      ∧ StartedIf s t (t.curtail.ceiling < s.curtail.ceiling
          ∨ (c.assert = true ∧ ∀ id : NodeId, s.curtail.set[id] = none))

/-! ### Directives (R20, R21, R72, R73, R174) -/

/-- R73, R99, R171, R174: CLEAR on each named pad removes the LATCH and retry entries, sets the retry count to 0, and
raises again what was removed while present; HOLD_WHILE and REPORT entries stay; the retry timer stops, and a retry entry
raised again starts it with its full time unless a LATCH is in force; a pad that nothing holds leaves HELD. The node bit
ends DUPLICATE_ID. -/
def Obligations.ClearDirectiveClearsTheNamedPads : Prop :=
  ∀ (s : State) (d : Directive), s.Settled → s.FaultsSafe → PadsDistinct s.cfg → s.OwnDirective d → d.action = .clear →
    Completes (exec .directiveClear s) fun t =>
      t = { s with choice := t.choice, ports := t.ports, line := { s.line with queue := s.line.queue.tail }
                   tx := { s.tx with status := t.tx.status }, duplicateId := s.duplicateId && !d.node
                   curtail := { s.curtail with mode := t.curtail.mode }, engine := t.engine, sup := t.sup }
      ∧ ∀ p : PortId,
          (¬ s.Names d p → t.ports[p].fault = s.ports[p].fault ∧ t.ports[p].session.state = s.ports[p].session.state)
          ∧ (s.Names d p →
              t.ports[p].fault.retries = 0
              ∧ (∀ c ∈ allConds, t.ports[p].fault.inForce.get c =
                  match s.ports[p].fault.inForce.get c with
                  | some e =>
                    if e.response = .holdWhile ∨ e.response = .report then some e
                    else if e.present = true ∧ s.cfg.responses.of c ≠ .ignore then some ⟨s.cfg.responses.of c, true⟩
                    else none
                  | none => none)
              ∧ (let has (r : Response) : Prop := ∃ c ∈ allConds, ∃ e ∈ t.ports[p].fault.inForce.get c, e.response = r
                 (has .latch → t.ports[p].fault.timer = none)
                 ∧ (¬ has .latch → has .retryLong → t.ports[p].fault.timer = some 30000)
                 ∧ (¬ has .latch → ¬ has .retryLong → has .retryShort → t.ports[p].fault.timer = some 5000)
                 ∧ (¬ has .latch → ¬ has .retryLong → ¬ has .retryShort → t.ports[p].fault.timer = none))
              ∧ (s.ports[p].session.state = .held → t.ports[p].fault.held = false →
                  t.ports[p].session.state = if s.ports[p].session.energy = 0 then .complete else .waiting)
              ∧ (s.ports[p].session.state ≠ .held ∨ t.ports[p].fault.held = true →
                  t.ports[p].session.state = s.ports[p].session.state))

/-- R20, R21, R73, R160: PAD_OFFLINE takes each named pad out of service, ends its session with a restart of the
monitors, and leaves the timer, the retry count, the stage-origin entries and the responses of the vehicle-origin LATCH
and retry entries. That what the session end reports cleared (R16, R160) takes the presence mark off such an entry, or
removes a REPORT or HOLD_WHILE entry (R172), is the model's reading against R20's 'left' (log 24). PAD_ONLINE puts an
OFFLINE pad back by the remembered presence level. -/
def Obligations.OfflineAndOnlineMoveTheNamedPads : Prop :=
  (∀ (s : State) (d : Directive), s.Settled → PadsDistinct s.cfg → s.OwnDirective d → d.action = .padOffline →
    Completes (exec .directivePadOffline s) fun t =>
      t = { s with choice := t.choice, ports := t.ports, line := { s.line with queue := s.line.queue.tail }
                   tx := { s.tx with status := t.tx.status }, sup := t.sup }
      ∧ ∀ p : PortId,
          (¬ s.Names d p → t.ports[p] = s.ports[p])
          ∧ (s.Names d p →
              t.ports[p].session.state = .offline
              ∧ t.ports[p].fault.timer = s.ports[p].fault.timer ∧ t.ports[p].fault.retries = s.ports[p].fault.retries
              ∧ (∀ c ∈ allConds, ∀ e ∈ s.ports[p].fault.inForce.get c,
                  e.response ≠ .report → e.response ≠ .holdWhile →
                    (t.ports[p].fault.inForce.get c).map Entry.response = some e.response)
              ∧ (∀ c ∈ allConds, vehicleOrigin c = false →
                  t.ports[p].fault.inForce.get c = s.ports[p].fault.inForce.get c)
              ∧ (s.ports[p].session.state.admitted = false →
                  t.ports[p] = { s.ports[p] with session := { s.ports[p].session with state := .offline } })
              ∧ (s.ports[p].session.state.admitted = true →
                  let gone (c : Cond) : Prop :=
                    (c = .contactLoss ∧ s.ports[p].session.contactLoss = true)
                    ∨ (c = .overDraw ∧ s.ports[p].stage.odPresent = true)
                    ∨ (c = .noDraw ∧ s.ports[p].stage.ndPresent = true)
                    ∨ (c = .taper ∧ s.ports[p].stage.tpPresent = true)
                  t.ports[p].session = Session.empty .offline s.ports[p].session.errors ∧ t.ports[p].Off
                  ∧ s.ports[p].stage.Restarted t.ports[p].stage
                  ∧ ∀ c ∈ allConds, t.ports[p].fault.inForce.get c =
                      match s.ports[p].fault.inForce.get c with
                      | some e =>
                        if ¬ gone c then some e
                        else if e.response = .report ∨ e.response = .holdWhile then none
                        else some { e with present := false }
                      | none => none)))
  ∧ ∀ (s : State) (d : Directive), PadsDistinct s.cfg → s.OwnDirective d → d.action = .padOnline →
      Completes (exec .directivePadOnline s) fun t =>
        t = { s with ports := t.ports, line := { s.line with queue := s.line.queue.tail } }
        ∧ ∀ p : PortId, t.ports[p] = { s.ports[p] with session := { s.ports[p].session with state :=
            if (∃ pad ∈ s.cfg.portMap[p], d.pads[pad] = true) ∧ s.ports[p].session.state = .offline then
              if s.ports[p].level = true then .arrived else .vacant
            else s.ports[p].session.state } }

/-! ### The allocation round (chapter 8) -/

/-- R34, R35, R38, R120, R122, R123: what a compute takes at its start. Ask and floor are set for every enabled port; the
budget is what the feeder figure leaves beyond the guard margin and the reserve, or the solo allowance, or its curtailed
part; the demands are those of the eligible sessions with an ask above 0, and the Rank List is the one of these demands.
-/
def Obligations.ComputeStartTakesTheSnapshot : Prop :=
  ∀ (s : State) (kind : ComputeKind),
    let t := s.startCompute kind
    t = { s with ports := t.ports, engine := { s.engine with inFlight := t.engine.inFlight } }
    ∧ (∀ p : PortId, s.enabled p = true →
        let x := s.ports[p].session
        let ask := if x.state.eligible = true then min (x.cap.getD x.pMax) x.pMax else 0
        t.ports[p] = { s.ports[p] with session := { x with
          urgency := if x.state.admitted = true then urgencyOf x.timeLeft x.energy x.pMax else x.urgency
          ask := ask, floor := if x.state.eligible = true then min (x.pMin.getD 0) ask else 0 } })
    ∧ (∀ p : PortId, s.enabled p = false → t.ports[p] = s.ports[p])
    ∧ t.engine.inFlight.isSome = true
    ∧ ∀ c ∈ t.engine.inFlight,
        c.ranks = t.rankList c.demands
        ∧ c.kind = kind ∧ c.mode = s.curtail.mode ∧ c.elapsed = 0 ∧ (∀ p : PortId, c.stopped[p] = false)
        ∧ (c.mode = .coordinated →
            let figure := min (min s.cfg.lCfg s.lLow) s.curtail.ceiling
            c.budget = figure - (s.cfg.guard + s.reserve) ∧ (c.short = true ↔ figure < s.cfg.guard + s.reserve))
        ∧ (c.mode = .solo → c.short = false
            ∧ c.budget =
              if s.curtail.localForce = true ∨ (s.line.acq = .inStep ∧ ∃ id : NodeId, (s.curtail.set[id]).isSome = true)
              then s.cfg.solo * s.cfg.pc / 100 else s.cfg.solo)
        ∧ (∀ p : PortId, c.eligible[p] = (s.enabled p && s.ports[p].session.state.eligible))
        ∧ c.demands.Pairwise (fun a b => a.pad < b.pad)
        ∧ (PadsDistinct s.cfg → ∀ p : PortId, ∀ pad ∈ s.cfg.portMap[p],
            let x := t.ports[p].session
            if x.state.eligible = true ∧ 0 < x.ask then
              Demand.mk pad x.cls x.urgency x.overdue x.cap.isSome x.floor x.ask ∈ c.demands
            else ∀ d ∈ c.demands, d.pad ≠ pad)

/-- R124: the Rank List of a compute holds its own demands and, when COORDINATED, those of the stored claims of the LIVE
and STALE entries below N_cfg, in rank order: class and urgency highest first, then node id and logical pad lowest first.
-/
def Obligations.RankListIsInRankOrder : Prop :=
  ∀ (s : State) (ds : List Demand),
    let own := ds.map fun d => d.ranked s.nodeId
    (s.rankList ds).Pairwise (fun a b =>
      b.cls < a.cls ∨ (b.cls = a.cls ∧ (b.urgency < a.urgency ∨ (b.urgency = a.urgency ∧
        (a.node < b.node ∨ (a.node = b.node ∧ a.pad ≤ b.pad))))))
    ∧ (s.curtail.mode = .solo → (s.rankList ds).Perm own)
    ∧ (s.curtail.mode = .coordinated →
        (s.rankList ds).Perm (own ++ (List.finRange 16).flatMap fun id =>
          if id.val < s.cfg.nCfg ∧ (s.peerState id = .live ∨ s.peerState id = .stale) then
            match s.peers[id].claim with
            | some c => c.demands.map fun d => ⟨id, false, d.pad, d.cls, d.urgency, d.floor, d.ask, d.intent, 0, false⟩
            | none => []
          else []))

/-- R121, R125 to R127: the floor pass gives each entry its floor or defers it, by what the entries before it have left of
the budget; the fill pass adds, in rank order, what is left up to the ask. Both spend the budget exactly: the grants sum
to the budget minus the headroom. A COORDINATED compute then forms the overhang, the sum of what the peers' intents are
above their grants, and walks the Rank List from its lowest-ranked entry upward: while some overhang is left each own
entry gives it up, and a cut that would leave an entry between 0 and its floor takes the whole grant. Peers' entries stay,
and the own node gives up the whole overhang, or all it has. -/
def Obligations.GrantsFollowThePassesAndTheOverhang : Prop :=
  (∀ (budget : Nat) (es : List Ranked),
    let f := floorPass budget es
    let g := fillPass f.2 f.1
    (f.1.map Ranked.grant).sum + f.2 = budget ∧ (g.1.map Ranked.grant).sum + g.2 = budget
    ∧ f.1.length = es.length ∧ g.1.length = es.length
    ∧ (∀ (i : Nat) (a b : Ranked), es[i]? = some a → f.1[i]? = some b →
        let before := ((f.1.take i).map Ranked.grant).sum
        b = { a with grant := if budget < a.floor + before then 0 else a.floor
                     deferred := decide (budget < a.floor + before) })
    ∧ ∀ (i : Nat) (a b : Ranked), f.1[i]? = some a → g.1[i]? = some b →
        let given := ((g.1.take i).map Ranked.grant).sum - ((f.1.take i).map Ranked.grant).sum
        b = { a with grant := if a.deferred = true then a.grant else a.grant + min (a.ask - a.floor) (f.2 - given) })
  ∧ (∀ (h : Nat) (es : List Ranked),
    let out := cutWalk h es
    let own (l : List Ranked) : Nat := (l.map fun e => if e.own = true then e.grant else 0).sum
    out.length = es.length ∧ own out ≤ own es ∧ min h (own es) ≤ own es - own out
    ∧ ∀ (i : Nat) (a b : Ranked), es[i]? = some a → out[i]? = some b →
        let left := h - (own (es.take i) - own (out.take i))
        let trial := a.grant - min a.grant left
        b = { a with grant :=
          if a.own = true ∧ 0 < left then (if 0 < trial ∧ trial < a.floor then 0 else trial) else a.grant })
  ∧ ∀ c : Compute,
    let floored := floorPass c.budget c.ranks
    let filled := fillPass floored.2 floored.1
    c.run.2 = filled.2
    ∧ (c.mode = .solo → c.run.1 = filled.1)
    ∧ (c.mode = .coordinated →
        c.run.1.reverse =
          cutWalk ((filled.1.map fun e => if e.own = true then 0 else e.intent - e.grant).sum) filled.1.reverse)

/-- R59, R91, R103, R118, R119, R128 to R131, R133, R157: a completion writes each own pad's grant, intent, command and
settled command, lowers a setpoint above its command at once, records the compute and places its CLAIM with one entry for
each own demand that has a result; the table changes of a HUNT entry that waited are made, and before the regular compute
of a remembered boundary the ageing that waited; a remembered boundary starts a regular compute and else a remembered
request an out-of-round one, on the table as it then stands. -/
def Obligations.CompletionWritesTheResults : Prop :=
  ∀ s : State, s.Settled → s.boot = .running → ∀ c ∈ s.engine.inFlight,
    Completes (exec .computeCompletion s) fun t =>
      t = { s with ports := t.ports, tx := { s.tx with claim := t.tx.claim }, peers := t.peers, engine := t.engine
                   sup := { t.sup with current := s.sup.current, latched := s.sup.latched, recorded := s.sup.recorded
                                       outstanding := s.sup.outstanding, periodic := s.sup.periodic } }
      ∧ t.tx.claim = some
          (⟨c.mode, c.short, 0,
            ((List.finRange 4).map fun p => if s.enabled p then s.ports[p].stage.latest else 0).sum,
            c.demands.filterMap fun d =>
              match carrierOf s.cfg d.pad with
              | some p =>
                if c.stopped[p] = false then
                  some ⟨d.pad, d.cls, d.urgency, d.overdue, d.taper, deferredOf c.run.1 d.pad, d.floor, d.ask,
                    t.ports[p].alloc.intent, s.ports[p].stage.latest⟩
                else none
              | none => none⟩, 0)
      ∧ t.engine.short = c.short ∧ t.engine.headroom = c.run.2 ∧ t.engine.completed = some (c.kind, c.mode)
      ∧ t.engine.boundary = false ∧ t.engine.request = false ∧ t.engine.huntPending = false
      ∧ t.engine.agePending = (s.engine.agePending && !s.engine.boundary)
      ∧ (let aged := s.engine.boundary = true ∧ s.engine.agePending = true
         (∀ id : NodeId, t.peers[id] =
            if s.peers[id].heard = true ∧ id ≠ s.nodeId then
              let lost := if s.engine.huntPending = true then { s.peers[id] with age := 4, claim := none } else s.peers[id]
              if aged then
                { lost with age := min 15 (lost.age + 1), claim := if 4 ≤ min 15 (lost.age + 1) then none else lost.claim }
              else lost
            else s.peers[id])
         ∧ (if s.engine.huntPending = true ∨ aged then t.sup.conflict = true ↔ ∃ id : NodeId, t.peerState id = .incompatible
            else t.sup.conflict = s.sup.conflict))
      ∧ t.engine.inFlight.map (fun n => (n.kind, n.mode, n.elapsed)) =
          (if s.engine.boundary = true then some (.regular, s.curtail.mode, 0)
           else if s.engine.request = true then some (.outOfRound, s.curtail.mode, 0) else none)
      ∧ (s.engine.boundary = true → t.engine.inFlight = (t.startCompute .regular).engine.inFlight)
      ∧ (s.engine.boundary = false → s.engine.request = true →
          t.engine.inFlight = (t.startCompute .outOfRound).engine.inFlight)
      ∧ ∀ p : PortId,
          (s.enabled p = false → t.ports[p] = s.ports[p])
          ∧ t.ports[p].fault = s.ports[p].fault
          ∧ t.ports[p].session =
              (if s.engine.boundary = true ∨ s.engine.request = true then (s.startCompute .regular).ports[p].session
               else s.ports[p].session)
          ∧ ∀ pad ∈ s.cfg.portMap[p],
              let a := s.ports[p].alloc
              let g := grantOf c.run.1 pad
              let up := min g (min a.command a.settled + s.cfg.dUp)
              t.ports[p].alloc =
                (if (∃ d ∈ c.demands, d.pad = pad) ∧ c.stopped[p] = false then
                  match c.kind, c.mode with
                  | .regular, .coordinated =>
                    if g ≤ a.command then ⟨g, g, g, g⟩ else ⟨g, min g (a.command + s.cfg.dUp), a.command, a.command⟩
                  | .regular, .solo => if g ≤ a.command then ⟨g, g, g, g⟩ else ⟨g, up, up, up⟩
                  | .outOfRound, .coordinated => ⟨g, min a.intent g, min a.command g, min a.command g⟩
                  | .outOfRound, .solo => ⟨g, min a.command g, min a.command g, min a.command g⟩
                else ⟨0, 0, 0, 0⟩)
              ∧ t.ports[p].stage = { s.ports[p].stage with
                  setpoint := min s.ports[p].stage.setpoint t.ports[p].alloc.command
                  enable := s.ports[p].stage.enable
                    && !decide (t.ports[p].alloc.command < s.ports[p].stage.setpoint ∧ t.ports[p].alloc.command = 0) }

/-- R132, the budget bound: at every completion the own pads' setpoints are at or below their commands, those at or below
their grants, and the grants sum to no more than the budget of the compute. -/
def Obligations.SetpointsStayWithinTheBudget : Prop :=
  ∀ s : State, s.boot = .running → PadsDistinct s.cfg → ∀ c ∈ s.engine.inFlight,
    Completes (exec .computeCompletion s) fun t =>
      let total (f : Port → Nat) : Nat := ((List.finRange 4).map fun p => if t.enabled p then f t.ports[p] else 0).sum
      (∀ p : PortId, t.enabled p = true →
        t.ports[p].stage.setpoint ≤ t.ports[p].alloc.command ∧ t.ports[p].alloc.command ≤ t.ports[p].alloc.grant)
      ∧ total (fun x => x.stage.setpoint) ≤ total (fun x => x.alloc.command)
      ∧ total (fun x => x.alloc.command) ≤ total (fun x => x.alloc.grant)
      ∧ total (fun x => x.alloc.grant) ≤ c.budget

/-! ### Transmission (chapter 5) -/

/-- R76 to R79: an attempt starts when the quiet count has reached its figure and a notice is waiting: the head of the
URGENT queue, else the CLAIM with the own round phase, else the STATUS, else the ANNOUNCE; the pending backoff becomes 0.
-/
def Obligations.AttemptTakesTheHighestNotice : Prop :=
  ∀ (s : State) (run : LineRun), s.boot = .running → s.tx.onLine = none →
    Completes (exec (.attemptStart run) s) fun t =>
      let quiet := min 236 (if run.zero = true then run.ones else s.tx.quiet + run.ones)
      t = { s with tx := t.tx }
      ∧ t.tx =
        if quiet < 12 + 32 * s.tx.backoff then { s.tx with quiet := quiet }
        else
          match s.tx.urgent, s.tx.claim, s.tx.status, s.tx.announce with
          | _ :: _, _, _, _ => { s.tx with quiet := quiet, backoff := 0, onLine := some (.urgent, false) }
          | [], some (c, n), _, _ =>
            { s.tx with quiet := quiet, backoff := 0, claim := none
                        onLine := some (.routine (.claim { c with phase := s.round.phase }) n, false) }
          | [], none, some (m, n), _ =>
            { s.tx with quiet := quiet, backoff := 0, status := none, onLine := some (.routine (.status m) n, false) }
          | [], none, none, some (a, n) =>
            { s.tx with quiet := quiet, backoff := 0, announce := none
                        onLine := some (.routine (.announce a) n, false) }
          | [], none, none, none => { s.tx with quiet := quiet }

/-- R75, R79, R85, R135, R181: a CLAIM sent raises the command of each pad it names to the entry's intent, when the pad
is eligible, the intent is above the command and not above the pad's intent of the latest completed compute; nothing
else moves. A CURTAIL sent leaves the URGENT queue; an ANNOUNCE or a periodic STATUS sent changes nothing else; a
latch-STATUS sent frees the snapshot, which latches again at once when the current values differ from the recorded, with
a STATUS of what the part then holds (R61, R182). -/
def Obligations.SentNoticesReachTheirOwners : Prop :=
  (∀ (s : State) (c : Claim) (n : Nat), s.Settled → s.boot = .running → PadsDistinct s.cfg →
    (c.entries.map ClaimEntry.pad).Nodup → s.tx.onLine = some (.routine (.claim c) n, false) →
    Completes (exec .transmissionComplete s) fun t =>
      t = { s with
        ports := t.ports
        tx := { s.tx with onLine := none, quiet := 8
                          sent := some ⟨0x11, loByte s.nodeId.val, loByte s.cfg.feederId, c.bytes⟩ }
        sup := { s.sup with faultPin := s.faultRule, alertPin := s.alertRule } }
      ∧ ∀ p : PortId,
          let a := s.ports[p].alloc
          let command :=
            match (c.entries.find? fun e => s.cfg.portMap[p] == some e.pad) with
            | some e =>
              if s.ports[p].session.state.eligible = true ∧ a.command < e.intent ∧ e.intent ≤ a.intent then e.intent
              else a.command
            | none => a.command
          t.ports[p] = { s.ports[p] with alloc := { a with command := command } })
  ∧ ∀ s : State, s.Settled → s.boot = .running →
    (∀ (c : Curtail) (k : Nat) (rest : List (Curtail × Nat)),
      s.tx.onLine = some (.urgent, false) → s.tx.urgent = (c, k) :: rest →
      Completes (exec .transmissionComplete s) fun t =>
        t = { s with tx := { s.tx with urgent := rest, onLine := none, quiet := 8
                                       sent := some ⟨0x14, loByte s.nodeId.val, loByte s.cfg.feederId, c.bytes⟩ } })
    ∧ (∀ (r : Routine) (n : Nat), s.tx.onLine = some (.routine r n, false) →
        ((∃ a : Announce, r = .announce a) ∨ (∃ m : Status, r = .status m ∧ m.periodic = true)) →
        Completes (exec .transmissionComplete s) fun t =>
          t = { s with tx := { s.tx with onLine := none, quiet := 8, sent := some (r.frame s.nodeId s.cfg.feederId) }
                       sup := { s.sup with faultPin := s.faultRule, alertPin := s.alertRule } })
    ∧ ∀ (m : Status) (n : Nat), s.tx.onLine = some (.routine (.status m) n, false) → m.periodic = false →
        Completes (exec .transmissionComplete s) fun t =>
          t = { s with tx := { s.tx with onLine := none, quiet := 8, status := t.tx.status
                                         sent := some ⟨0x13, loByte s.nodeId.val, loByte s.cfg.feederId, m.bytes⟩ }
                       sup := t.sup }
          ∧ t.sup.current = s.sup.current ∧ t.sup.conflict = s.sup.conflict ∧ t.sup.periodic = s.sup.periodic
          ∧ (if s.sup.current = s.sup.recorded then
              t.sup.latched = false ∧ t.sup.outstanding = false ∧ t.sup.recorded = s.sup.recorded
              ∧ t.sup.cause = s.sup.cause ∧ t.tx.status = s.tx.status
             else
              t.sup.latched = true ∧ t.sup.outstanding = true ∧ t.sup.recorded = s.sup.current
              ∧ t.sup.cause = .changedWhileLatched ∧ t.sup.alertPin = true
              ∧ ∃ w : Status, t.tx.status = some (w, 0) ∧ w.periodic = false ∧ w.health = s.sup.current
                  ∧ w.cause = .changedWhileLatched ∧ w.Tells s)

/-- R80, R82 to R85, R181: a collision stops the notice. After the abort a notice short of its fourth collision backs off
by a draw and keeps its place, unless its slot holds a newer one; at the fourth it is dropped and counted, and a dropped
latch-STATUS is no longer outstanding. -/
def Obligations.CollisionsBackOffAndDrop : Prop :=
  (∀ (s : State) (o : OnLine), s.boot = .running → s.tx.onLine = some (o, false) →
    Completes (exec .collision s) fun t => t = { s with tx := { s.tx with onLine := some (o, true) } })
  ∧ (∀ (s : State) (r : Routine) (k : Nat), s.Settled → s.boot = .running →
      s.tx.onLine = some (.routine r k, true) → Completes (exec .abortEnd s) fun t =>
      if k < 3 then
        StepsGenerator s.tx t.tx (k + 1)
        ∧ t = { s with
            tx := { s.tx with
              onLine := none, quiet := 0, backoff := t.tx.backoff, lfsr := t.tx.lfsr
              claim := match r with | .claim c => s.tx.claim.or (some (c, k + 1)) | _ => s.tx.claim
              status := match r with | .status m => s.tx.status.or (some (m, k + 1)) | _ => s.tx.status
              announce := match r with | .announce a => s.tx.announce.or (some (a, k + 1)) | _ => s.tx.announce } }
      else
        t = { s with
          tx := { s.tx with
            onLine := none, quiet := 0, backoff := 0
            claimsDropped := match r with
              | .claim _ => min 255 (s.tx.claimsDropped + 1)
              | _ => s.tx.claimsDropped
            noticesDropped := match r with
              | .claim _ => s.tx.noticesDropped
              | _ => min 255 (s.tx.noticesDropped + 1) }
          sup := { s.sup with
            outstanding := match r with
              | .status m => s.sup.outstanding && m.periodic
              | _ => s.sup.outstanding
            faultPin := s.faultRule, alertPin := s.alertRule } })
  ∧ ∀ (s : State) (c : Curtail) (k : Nat) (rest : List (Curtail × Nat)), s.boot = .running →
      s.tx.onLine = some (.urgent, true) → s.tx.urgent = (c, k) :: rest → Completes (exec .abortEnd s) fun t =>
      if k < 3 then
        StepsGenerator s.tx t.tx (k + 1)
        ∧ t = { s with tx := { s.tx with onLine := none, quiet := 0, backoff := t.tx.backoff, lfsr := t.tx.lfsr
                                         urgent := (c, k + 1) :: rest } }
      else
        t = { s with tx := { s.tx with onLine := none, quiet := 0, backoff := 0, urgent := rest
                                       noticesDropped := min 255 (s.tx.noticesDropped + 1) } }

/-! ### The CURTAIL pin (R142 to R144) and the round boundary (R106) -/

/-- R75, R117, R142 to R144, R147, R150: once the pin has held its new level for 20 ms, and not before, it has an edge. An
assertion brings local curtail into force, lowers the ceiling to the target at once, places an assert notice and requests
a compute; a release ends it, places a release notice and requests none. -/
def Obligations.CurtailPinEdgesMoveTheCeiling : Prop :=
  (∀ s : State, s.Settled → s.boot = .running → s.curtail.pin = false → s.pins.curtail = true → 20 ≤ s.curtail.hold →
    Completes (exec .curtailAssertion s) fun t =>
      t = { s with choice := t.choice, ports := t.ports, curtail := t.curtail, engine := t.engine, sup := t.sup
                   tx := { s.tx with urgent := s.tx.urgent.take 1 ++ [(⟨true, s.cfg.pc⟩, 0)], status := t.tx.status } }
      ∧ t.curtail = { s.curtail with pin := true, hold := 0, localForce := true, target := t.curtailTarget
                                     ceiling := min s.curtail.ceiling t.curtailTarget }
      ∧ (t.sup.current.ceilingReduced = true ↔ t.curtail.ceiling < s.cfg.lCfg ∨ s.lLow < s.cfg.lCfg)
      ∧ (s.engine.inFlight = none → t.engine = { s.engine with inFlight := t.engine.inFlight }
          ∧ State.Started s t .outOfRound
          ∧ t.engine.inFlight.map (fun c => (c.kind, c.mode, c.elapsed)) = some (.outOfRound, s.curtail.mode, 0))
      ∧ (s.engine.inFlight.isSome = true → t.engine = { s.engine with request := true } ∧ t.ports = s.ports))
  ∧ (∀ s : State, s.Settled → s.boot = .running → s.curtail.pin = true → s.pins.curtail = false → 20 ≤ s.curtail.hold →
      Completes (exec .curtailRelease s) fun t =>
        t = { s with choice := t.choice, curtail := t.curtail, sup := t.sup
                     tx := { s.tx with urgent := s.tx.urgent.take 1 ++ [(⟨false, s.cfg.pc⟩, 0)]
                                       status := t.tx.status } }
        ∧ t.curtail = { s.curtail with pin := false, hold := 0, localForce := false, target := t.curtailTarget
                                       ceiling := min s.curtail.ceiling t.curtailTarget }
        ∧ (t.sup.current.ceilingReduced = true ↔ t.curtail.ceiling < s.cfg.lCfg ∨ s.lLow < s.cfg.lCfg))
  ∧ ∀ (s : State) (low : Bool),
      s.boot ≠ .running ∨ s.curtail.pin = low ∨ s.pins.curtail ≠ low ∨ s.curtail.hold < 20 →
      Completes (exec (if low = true then .curtailAssertion else .curtailRelease) s) fun t => t = s

/-- R106, R109 to R112, R114: at a boundary the phase becomes 0 and the count rises; the mean of the LIVE entries' errors,
truncated toward zero, sets the length of the new round by the align mode, and PHASE_OUT follows the last valid mean;
every phase error is then absent (R91). That the ONCE state stays as it is in the other modes, whatever the mean, is the
model's choice (log 40). -/
def Obligations.BoundarySetsTheNextRound : Prop :=
  ∀ s : State, s.boot = .running → Completes (exec .roundBoundary s) fun t =>
    let errors := (List.finRange 16).filterMap fun id =>
      if s.peerState id = .live then s.peers[id].phaseErr else none
    t.round.phase = 0 ∧ t.round.count = (s.round.count + 1) % 256
    ∧ (errors = [] → t.round.mean = none ∧ t.round.lastMean = s.round.lastMean ∧ t.round.length = 500
        ∧ t.round.once = s.round.once)
    ∧ (errors ≠ [] →
        let m := errors.sum.tdiv errors.length
        t.round.mean = some m ∧ t.round.lastMean = some m
        ∧ t.round.once = (if s.cfg.align = .once then .monitoring else s.round.once)
        ∧ (t.round.length : Int) =
            if s.cfg.window < m.natAbs then
              match s.cfg.align with
              | .continuous => 500 - max (-25) (min 25 (m.tdiv 4))
              | .once => if s.round.once = .aligning then ((500 - m).toNat : Int) else 500
              | .monitor => 500
            else 500)
    ∧ (t.round.phaseOut = true ↔ ∃ m ∈ t.round.lastMean, s.cfg.window < m.natAbs)
    ∧ (∀ id : NodeId, t.peers[id].phaseErr = none)
    ∧ t.boot = s.boot ∧ t.nodeId = s.nodeId ∧ t.now = s.now ∧ t.cfg = s.cfg ∧ t.duplicateId = s.duplicateId
    ∧ t.badKind = s.badKind ∧ t.pending = s.pending
    ∧ ∀ p : PortId, t.ports[p].stage = s.ports[p].stage ∧ t.ports[p].alloc = s.ports[p].alloc
        ∧ t.ports[p].fault = s.ports[p].fault ∧ t.ports[p].session.state = s.ports[p].session.state

/-- R52, R55, R56, R91, R117, R118, R146, R148, R149, R151: at a boundary that does not drop the line, each block does its
work: the Curtail Set ages, the ceiling takes one ramp step, the silence count, the listen span and the ANNOUNCE count
move, the mode is judged, and the regular compute starts from the aged table, or the boundary is remembered. -/
def Obligations.BoundaryDoesEachBlocksWork : Prop :=
  ∀ s : State, s.Settled → s.ModeFollows → s.boot = .running →
    ¬ (1 < s.cfg.nCfg ∧ s.line.acq ≠ .hunt ∧ s.line.heard = false ∧ 3 ≤ s.line.silence) →
    Completes (exec .roundBoundary s) fun t =>
      let watched := 1 < s.cfg.nCfg ∧ s.line.acq ≠ .hunt
      let announced := (if s.line.acq = .inStep then 16 else 4) ≤ s.line.announce + 1
      (∀ id : NodeId, t.curtail.set[id] = match s.curtail.set[id] with
        | some e => if e.age < 2 then some ⟨e.percent, e.age + 1⟩ else none
        | none => none)
      ∧ t.curtail.target = t.curtailTarget ∧ t.curtail.pin = s.curtail.pin
      ∧ t.curtail.localForce = s.curtail.localForce
      ∧ t.curtail.ceiling =
          (if s.curtail.ceiling < t.curtail.target then min (s.curtail.ceiling + s.cfg.lCfg / 16) t.curtail.target
           else t.curtail.target)
      ∧ t.tx.urgent =
          (if s.curtail.pin = true then s.tx.urgent.take 1 ++ [(⟨true, s.cfg.pc⟩, 0)] else s.tx.urgent)
      ∧ t.line = { s.line with
          silence := if watched then (if s.line.heard = true then 0 else s.line.silence + 1) else s.line.silence
          heard := if watched then false else s.line.heard
          span := s.line.span.map fun n => min 2 (n + 1)
          announce := if announced then 0 else s.line.announce + 1 }
      ∧ (announced → t.tx.announce.isSome = true) ∧ (¬ announced → t.tx.announce = s.tx.announce)
      ∧ t.ModeFollows
      ∧ (t.sup.current.ceilingReduced = true ↔ t.curtail.ceiling < s.cfg.lCfg ∨ s.lLow < s.cfg.lCfg)
      ∧ (s.engine.inFlight.isSome = true →
          t.engine = { s.engine with boundary := true, agePending := true } ∧ t.ports = s.ports
          ∧ ∀ id : NodeId, t.peers[id] = { s.peers[id] with phaseErr := none })
      ∧ (s.engine.inFlight = none →
          t.engine = { s.engine with inFlight := t.engine.inFlight }
          ∧ State.Started s t .regular
          ∧ t.engine.inFlight.map (fun c => (c.kind, c.mode, c.elapsed)) = some (.regular, t.curtail.mode, 0)
          ∧ ∀ id : NodeId, t.peers[id] =
              if s.peers[id].heard = true ∧ id ≠ s.nodeId then
                { s.peers[id] with
                  age := min 15 (s.peers[id].age + 1), phaseErr := none
                  claim := if 4 ≤ min 15 (s.peers[id].age + 1) then none else s.peers[id].claim }
              else { s.peers[id] with phaseErr := none })

/-- R52, R53, R152: the fourth boundary in a row with nothing heard drops the line: HUNT with its counts at 0, the Curtail
Set empty, the node SOLO, and both the solo compute and the regular one run. -/
def Obligations.SilenceDropsTheLine : Prop :=
  ∀ s : State, s.Settled → s.boot = .running → 1 < s.cfg.nCfg → s.line.acq ≠ .hunt → s.line.heard = false →
    s.line.silence = 3 → Completes (exec .roundBoundary s) fun t =>
      t.line = { Line.reset with
        announce := t.line.announce, stamp := s.line.stamp, bad := s.line.bad, aborted := s.line.aborted
        foreign := s.line.foreign, overruns := s.line.overruns }
      ∧ (∀ id : NodeId, t.curtail.set[id] = none) ∧ t.curtail.mode = .solo ∧ t.sup.current.lineInStep = false
      ∧ (s.engine.inFlight.isSome = true → t.engine.boundary = true ∧ t.engine.huntPending = true
          ∧ (s.curtail.mode = .coordinated → t.engine.request = true))
      ∧ (s.engine.inFlight = none → t.engine.inFlight.isSome = true
          ∧ (∀ c ∈ t.engine.inFlight, c.mode = .solo ∧ State.Started s t c.kind)
          ∧ (s.curtail.mode = .coordinated →
              (∃ c ∈ t.engine.inFlight, c.kind = .regular ∧ t.engine.request = true)
              ∨ ∃ c ∈ t.engine.inFlight, c.kind = .outOfRound ∧ t.engine.boundary = true)
          ∧ ∀ id : NodeId, id ≠ s.nodeId → s.peers[id].heard = true → 4 ≤ t.peers[id].age ∧ t.peers[id].claim = none)

/-- R61, R181, R182: a failed latch-STATUS is placed again at the next boundary, and every 16th boundary places a
periodic STATUS unless a latch-STATUS is outstanding. Beside the health values, the cause and the mark, each carries
what the part holds when the boundary has done its work: R182 takes that at the placement, and that the placement comes
after the work of every other block whose figures a STATUS carries is the model's reading (logs 20 and 29). -/
def Obligations.BoundaryPlacesTheStatus : Prop :=
  ∀ s : State, s.Settled → s.boot = .running → Completes (exec .roundBoundary s) fun t =>
    t.sup.periodic = (if 15 ≤ s.sup.periodic then 0 else s.sup.periodic + 1)
    ∧ (s.sup.latched = true → t.sup.latched = true ∧ t.sup.outstanding = true ∧ t.sup.recorded = s.sup.recorded
        ∧ t.sup.cause = s.sup.cause)
    ∧ (s.sup.latched = true → s.sup.outstanding = false → ∃ m : Status, t.tx.status = some (m, 0)
        ∧ m.periodic = false ∧ m.health = s.sup.recorded ∧ m.cause = s.sup.cause ∧ m.Tells t)
    ∧ (s.sup.latched = true → s.sup.outstanding = true → t.tx.status = s.tx.status)
    ∧ (s.sup.latched = false → t.sup.latched = false → s.sup.outstanding = false → 15 ≤ s.sup.periodic →
        ∃ m : Status, t.tx.status = some (m, 0) ∧ m.periodic = true ∧ m.health = t.sup.current ∧ m.cause = s.sup.cause
          ∧ m.Tells t)
    ∧ (s.sup.latched = false → t.sup.latched = false → s.sup.periodic < 15 → t.tx.status = s.tx.status)

/-- R61, R180, R182: a change of any of the five health conditions that reaches a free snapshot latches it with that
condition as the cause; the recorded values are the values before it with that condition changed, and a latch-STATUS
with them and with what the part holds is placed and marked outstanding. R182 takes what the part holds at the placement;
that this is after the event's other effects (a hold's monitor restart and clears among them) is the model's reading
(log 29; log 20 at a boundary). While the snapshot is latched its values and its cause stay. Which of several changes of
one event is taken first R180 leaves open (log 6). -/
def Obligations.HealthChangesLatchTheSnapshot : Prop :=
  ∀ (c : Instr) (s : State), c.wellFormed = true → s.SnapshotFollows → s.boot = .running → c ≠ .reset →
    c ≠ .transmissionComplete →
    Completes (exec c s) fun t =>
      (s.sup.latched = true → t.sup.latched = true ∧ t.sup.recorded = s.sup.recorded ∧ t.sup.cause = s.sup.cause)
      ∧ (s.sup.latched = false → t.sup.current ≠ s.sup.current → t.sup.latched = true)
      ∧ (s.sup.latched = false → t.sup.latched = false → t.sup.recorded = s.sup.recorded ∧ t.sup.cause = s.sup.cause)
      ∧ (s.sup.latched = false → t.sup.latched = true →
          t.sup.outstanding = true ∧ t.sup.alertPin = true
          ∧ (∃ k : HealthCond, t.sup.cause = .cond k
              ∧ t.sup.recorded = s.sup.current.put k (!s.sup.current.get k))
          ∧ ∃ m : Status, t.tx.status = some (m, 0) ∧ m.periodic = false ∧ m.health = t.sup.recorded
              ∧ m.cause = t.sup.cause ∧ m.Tells t)

/-! ### Stage ports (chapter 10) -/

/-- R17, R155, R157, R158, R162, R163: a measure tick sends an eligible pad's command, and 0 to any other; the enable
follows, the pad is CHARGING or WAITING by it, and the counts that a changed setpoint restarts are restarted. -/
def Obligations.MeasureTickSendsTheCommand : Prop :=
  ∀ (s : State) (p : PortId), s.boot = .running → s.enabled p = true →
    Completes (exec (.measureTickSend p) s) fun t =>
      let x := s.ports[p]
      let v := if x.session.state.eligible = true then x.alloc.command else 0
      let steady := v = x.stage.tick ∧ max x.session.floor 50 ≤ v
      t = { s with ports := s.ports.set p { x with
        session := { x.session with state :=
          if x.session.state.eligible = true then (if 0 < v then .charging else .waiting) else x.session.state }
        stage := { x.stage with
          setpoint := v, tick := v, prev := x.stage.tick, enable := decide (0 < v), awaiting := some 0
          ndSteady := if steady then x.stage.ndSteady else 0, ndLow := if steady then x.stage.ndLow else 0
          tpCount := if v = x.stage.tick then x.stage.tpCount else 0, sent := some (setpointMessage v) } } }

/-- R23 to R25, R156, R36: a status arrival takes in the measured power and adds it to the accumulator of an admitted
session with energy to come; a whole eu is taken off, and a session brought to 0 becomes COMPLETE and loses its power.
What the monitors clear reaches the fault record (R172) and may release the pad (R173); what they raise reaches it under
its response (R170, R171), and a raise under a holding response holds the pad. A hold that takes force so restarts the
monitors (R160): their counts are 0, the vehicle-origin conditions not present and the stage-origin ones as the tick was
judged; that the tick is judged first is the model's reading (log 10). -/
def Obligations.StatusArrivalAccountsTheEnergy : Prop :=
  ∀ (s : State) (p : PortId) (a : StageAnswer), s.Settled → s.FaultsSafe → s.boot = .running → s.enabled p = true →
    s.ports[p].stage.awaiting.isSome = true → Completes (exec (.statusArrival p a) s) fun t =>
      let x := s.ports[p].session
      let m := min a.measured.toNat 4000
      let counted := x.state.admitted = true ∧ 0 < x.energy
      let taken := counted ∧ 36000 ≤ x.acc + m
      let done := taken ∧ x.energy = 1 ∧ x.state.eligible = true
      let v := judgeTick s.cfg x.state.admitted x.floor m (min a.voltage.toNat 1000) a.fault
        { s.ports[p].stage with latest := m, awaiting := none, setpoint := t.ports[p].stage.setpoint
                                enable := t.ports[p].stage.enable }
      OnlyPort s t p ∧ t.ports[p].stage.latest = m ∧ t.ports[p].stage.awaiting = none
      ∧ t.ports[p].session.energy = (if taken then x.energy - 1 else x.energy)
      ∧ t.ports[p].session.acc =
          (if taken then x.acc + m - 36000 else if counted then x.acc + m else x.acc)
      ∧ t.ports[p].session.cap =
          (if x.state.admitted = true ∧ .taper ∈ v.raises then
            some (min (m + m / 16) (x.cap.getD (m + m / 16))) else x.cap)
      ∧ (done → t.ports[p].Off ∧ t.Marked p)
      ∧ (v.raises = [] →
          t.ports[p].fault = s.ports[p].fault.clearAll v.clears ∧ t.ports[p].stage = v.stage
          ∧ t.ports[p].session.state =
              if done then .complete
              else if x.state = .held ∧ s.ports[p].fault.held = true ∧ t.ports[p].fault.held = false then
                (if t.ports[p].session.energy = 0 then .complete else .waiting)
              else x.state)
      ∧ (v.clears = [] →
          let f := s.ports[p].fault.raiseAll s.cfg.responses v.raises
          t.ports[p].fault.timer = f.timer ∧ t.ports[p].fault.retries = f.retries
          ∧ (∀ c ∈ allConds,
              (vehicleOrigin c = false → t.ports[p].fault.inForce.get c = f.inForce.get c)
              ∧ ∀ e ∈ f.inForce.get c, e.response = .latch ∨ retrying e.response = true →
                  (t.ports[p].fault.inForce.get c).map Entry.response = some e.response)
          ∧ (s.ports[p].fault.held = true ∨ f.held = false →
              t.ports[p].fault = f ∧ t.ports[p].stage = v.stage
              ∧ t.ports[p].session.state = if done then .complete else x.state))
      ∧ ((∃ c ∈ v.raises, holding (s.cfg.responses.of c) = true) →
          t.ports[p].fault.held = true ∧ (x.state.admitted = true → t.ports[p].session.state = .held)
          ∧ (s.ports[p].fault.held = false → t.ports[p].Off ∧ t.Marked p ∧ v.stage.Restarted t.ports[p].stage))

/-- R160 to R165: what the six monitors make of an answered tick. The vehicle-origin ones judge only an admitted session's
tick. When NO_DRAW clears is the model's reading (log 33). -/
def Obligations.MonitorsJudgeAnAnsweredTick : Prop :=
  ∀ (cfg : Configuration) (admitted : Bool) (floor m u : Nat) (flag : Bool) (g : Stage),
    let v := judgeTick cfg admitted floor m u flag g
    let heavy := admitted = true ∧ g.tick + max (g.tick / 16) 20 < m
    let low := 0 < g.tick ∧ m < g.tick * 7 / 8
    let n := min 3 (g.odCount + 1)
    let watched := admitted = true ∧ max floor 50 ≤ g.tick
    let still := m < g.tick / 32
    v.stage.odCount = (if admitted = false then g.odCount else if heavy then n else 0)
    ∧ v.stage.odPresent = (if admitted = false then g.odPresent else decide (heavy ∧ (g.odPresent = true ∨ n = 3)))
    ∧ (.overDraw ∈ v.raises ↔ heavy ∧ n = 3 ∧ g.odPresent = false)
    ∧ (.overDraw ∈ v.clears ↔ admitted = true ∧ ¬ heavy ∧ g.odPresent = true)
    ∧ v.stage.ndSteady = (if watched ∧ g.ndSteady < 20 then g.ndSteady + 1 else g.ndSteady)
    ∧ v.stage.ndLow =
        (if watched ∧ 20 ≤ g.ndSteady then (if still then min 50 (g.ndLow + 1) else 0) else g.ndLow)
    ∧ (.noDraw ∈ v.raises ↔ watched ∧ 20 ≤ g.ndSteady ∧ still ∧ 49 ≤ g.ndLow ∧ g.ndPresent = false)
    ∧ (.noDraw ∈ v.clears ↔ admitted = true ∧ g.ndPresent = true ∧ (¬ watched ∨ ¬ still))
    ∧ v.stage.ndPresent = ((g.ndPresent || decide (.noDraw ∈ v.raises)) && !decide (.noDraw ∈ v.clears))
    ∧ v.stage.tpCount =
        (if admitted = false then g.tpCount else if low ∧ g.tpCount + 1 < 20 then g.tpCount + 1 else 0)
    ∧ (.taper ∈ v.raises ↔ admitted = true ∧ low ∧ 20 ≤ g.tpCount + 1)
    ∧ (.taper ∈ v.clears ↔ admitted = true ∧ ¬ low ∧ g.tpPresent = true)
    ∧ v.stage.tpPresent = ((g.tpPresent || decide (.taper ∈ v.raises)) && !decide (.taper ∈ v.clears))
    ∧ (.stageFault ∈ v.raises ↔
        g.sfPresent = false ∧ flag = true ∧ 1 ≤ g.sfFlag)
    ∧ (.stageFault ∈ v.clears ↔ g.sfPresent = true ∧ flag = false ∧ 1 ≤ g.sfNormal)
    ∧ v.stage.sfPresent = ((g.sfPresent || decide (.stageFault ∈ v.raises)) && !decide (.stageFault ∈ v.clears))
    ∧ v.stage.sfSilence = 0
    ∧ v.stage.sfFlag = (if flag = true then min 2 (g.sfFlag + 1) else 0)
    ∧ v.stage.sfNormal =
        (if flag = true then 0 else if g.sfPresent = false then g.sfNormal else if 1 ≤ g.sfNormal then 0
         else g.sfNormal + 1)
    ∧ (.busLow ∈ v.raises ↔ g.busLow = false ∧ u < cfg.vLow)
    ∧ (.busLow ∈ v.clears ↔ g.busLow = true ∧ cfg.vLow + 10 ≤ u)
    ∧ v.stage.busLow = ((g.busLow || decide (.busLow ∈ v.raises)) && !decide (.busLow ∈ v.clears))
    ∧ (.busHigh ∈ v.raises ↔ g.busHigh = false ∧ cfg.vHigh < u)
    ∧ (.busHigh ∈ v.clears ↔ g.busHigh = true ∧ u + 10 ≤ cfg.vHigh)
    ∧ v.stage.busHigh = ((g.busHigh || decide (.busHigh ∈ v.raises)) && !decide (.busHigh ∈ v.clears))

/-- R24, R156, R160, R164: a tick without answer has no data: the accounting and the latest measured stay, and only the
silence count of STAGE_FAULT moves; at the third the condition is raised, and its response, LATCH or HOLD_WHILE, holds
the pad, by which the monitors restart with STAGE_FAULT present. -/
def Obligations.SilentTickOnlyCountsSilence : Prop :=
  ∀ (s : State) (p : PortId), s.Settled → s.FaultsSafe → s.boot = .running → s.enabled p = true →
    s.ports[p].stage.awaiting.isSome = true → Completes (exec (.noAnswer p) s) fun t =>
      let g := s.ports[p].stage
      let n := min 3 (g.sfSilence + 1)
      let raised := g.sfPresent = false ∧ (n = 3 ∨ 2 ≤ g.sfFlag)
      OnlyPort s t p
      ∧ t.ports[p].session = { s.ports[p].session with state := t.ports[p].session.state }
      ∧ t.ports[p].stage.latest = g.latest ∧ t.ports[p].stage.awaiting = none ∧ t.ports[p].stage.tick = g.tick
      ∧ (¬ raised → t.ports[p] = { s.ports[p] with stage := { g with sfSilence := n, sfNormal := 0, awaiting := none } })
      ∧ (raised → t.ports[p].stage.sfPresent = true ∧ t.ports[p].fault.held = true
          ∧ (∃ e ∈ t.ports[p].fault.inForce.stageFault, e.present = true)
          ∧ (s.ports[p].session.state.admitted = true → t.ports[p].session.state = .held)
          ∧ (s.ports[p].fault.held = false →
              t.ports[p].Off ∧ t.Marked p ∧ Stage.Restarted { g with sfPresent := true } t.ports[p].stage))

/-- R171, R173, R176: the retry timer's expiry, once its remaining time is 0 and not before, removes every retry entry,
stops the timer and raises the retry count, up to 3; a HELD session that nothing holds any longer goes to WAITING, or to
COMPLETE without energy to come. -/
def Obligations.RetryExpiryReleasesThePad : Prop :=
  (∀ (s : State) (p : PortId), s.Settled → s.boot = .running → s.enabled p = true →
    s.ports[p].fault.timer = some 0 → Completes (exec (.retryTimerExpiry p) s) fun t =>
      let f := t.ports[p].fault
      OnlyPort s t p ∧ f.timer = none ∧ f.retries = min 3 (s.ports[p].fault.retries + 1)
      ∧ (∀ c ∈ allConds, f.inForce.get c =
          match s.ports[p].fault.inForce.get c with
          | some e => if retrying e.response = true then none else some e
          | none => none)
      ∧ t.ports[p] = { s.ports[p] with
          fault := f
          session := { s.ports[p].session with state :=
            if s.ports[p].session.state = .held ∧ s.ports[p].fault.held = true ∧ f.held = false then
              (if s.ports[p].session.energy = 0 then .complete else .waiting)
            else s.ports[p].session.state } })
  ∧ ∀ (s : State) (p : PortId), s.ports[p].fault.timer ≠ some 0 →
      Completes (exec (.retryTimerExpiry p) s) fun t => t = s

/-! ### Formats (chapters 3 and 13) -/

/-- R59 to R63, R69, R190, R191: a notice whose fields are in their ranges is read back, field by field, from the body it
is sent with; of a STATUS the duplicate flag is. -/
def Obligations.NoticesAreReadBackAsSent : Prop :=
  (∀ c : Claim, c.phase ≤ 749 → c.draw ≤ 16000 → c.entries.length ≤ 4 → (c.entries.map ClaimEntry.pad).Nodup →
    (∀ e ∈ c.entries, e.cls ≤ 3 ∧ e.urgency ≤ 255 ∧ e.floor ≤ e.ask ∧ e.ask ≤ 65535 ∧ e.intent ≤ 65535
      ∧ e.measured ≤ 4000) → parseClaim c.bytes = some c)
  ∧ (∀ a : Announce, 100 ≤ a.lCfg → a.lCfg ≤ 65000 → a.guard ≤ a.lCfg / 4 → 1 ≤ a.nCfg → a.nCfg ≤ 16 → 10 ≤ a.pc →
      a.pc ≤ 100 → a.inService ≤ 4 → parseAnnounce a.bytes = some a)
  ∧ (∀ m : Status, (∀ e ∈ m.mean, -250 ≤ e ∧ e ≤ 249) → (∀ i : PadId, ∀ x ∈ m.pads[i], x.retries ≤ 3) →
      parseStatus m.bytes = some m.duplicate)
  ∧ (∀ c : Curtail, 10 ≤ c.percent → c.percent ≤ 100 → parseCurtail c.bytes = some c)
  ∧ ∀ d : Directive, d.target ≤ 15 ∨ d.target = 31 → parseDirective d.bytes = some d

/-- R40 to R45, R80, R81: a frame goes out stuffed between its delimiters, and a receiver that has heard 12 quiet bit
times hears exactly that frame, good, whatever its header and body. At the first bit read back other than driven an
attempt sends 10 zeros after it: no frame where it stops in the 7 zeros of the SOF, one aborted frame where it stops in
the closing 1, the content or the stuff bits, the good frame where it stops in the last two bits; without such a bit it
is sent whole. That content of exactly 261 bytes is good, and so an attempt at it is heard as too long where its zeros
take it further, is the model's reading (log 25), and so is which commands an attempt is (log 17). -/
def Obligations.FramesAreHeardAsSent : Prop :=
  ∀ f : Frame, f.wellFormed = true →
    (Receiver.run (.hunting 12 0) (Frame.lineBits f)).2 = [.good f]
    ∧ Frame.attemptBits f (Frame.lineBits f) = Frame.lineBits f
    ∧ Frame.attemptCommands f (Frame.lineBits f) = [.transmissionComplete]
    ∧ ∀ (before : List Bool) (b : Bool) (after levels : List Bool), Frame.lineBits f = before ++ b :: after →
        let heard := (Receiver.run (.hunting 12 0) (Frame.attemptBits f (before ++ (!b) :: levels))).2
        Frame.attemptBits f (before ++ (!b) :: levels) = before ++ b :: List.replicate 10 false
        ∧ Frame.attemptCommands f (before ++ (!b) :: levels) = [.collision, .abortEnd]
        ∧ (before.length < 7 → heard = [])
        ∧ (7 ≤ before.length → 8 ≤ after.length → f.body.length ≤ 254 → heard = [.aborted])
        ∧ (after.length ≤ 1 → heard = [.good f])

/-- R6, R155, R185, R190, R192, R193: bytes sent on a UART link, each with its start bit, bit 0 first, and its stop bit,
are heard as they were sent, well framed and without a gap. A record of a length that fits its kind is so accepted with
its kind and body, and the receiver hunts for the next; a stage's answer that comes within the 30 ms is taken with its
figures. Of the image read, a missing acknowledge of the address or the offset fails the attempt, too few bits in the 30
ms time it out, and 128 bytes, most significant bit first, are the image. -/
def Obligations.LinksCarryTheBytesAsSent : Prop :=
  (∀ (quiet : Nat) (bytes : List Byte), quiet ≤ 96 →
    (UartReceiver.run (.idle quiet) (bytes.flatMap fun b => false :: (byteBits b).reverse ++ [true])).2
      = bytes.map fun b => ⟨b, false, false⟩)
  ∧ (∀ (kind : Byte) (body : List Byte), body.length ≤ 31 → lengthFits kind body = true →
      ContactReceiver.run .hunting ((recordBytes kind body).map fun b => ⟨b, false, false⟩)
        = (.hunting, [.accepted kind body]))
  ∧ (∀ (quiet : Nat) (m1 m0 v1 v0 flags : Byte), quiet + 70 ≤ 1728 →
      (answerOnLine (List.replicate quiet true
          ++ uartLine [0x6B, m1, m0, v1, v0, flags, crc8 [m1, m0, v1, v0, flags]])).map
        (fun a => (a.measured.toNat, a.voltage.toNat, a.fault))
        = some (m1.toNat * 256 + m0.toNat, v1.toNat * 256 + v0.toNat, flags.getLsbD 0))
  ∧ (∀ image : List Byte, image.length = 128 →
      imageRead ([false, false, false] ++ bytesBits image) = .image image)
  ∧ (∀ (k : Nat) (rest : List Bool), k < 3 →
      imageRead (List.replicate k false ++ true :: rest) = .failed .noAcknowledge
      ∧ imageRead (List.replicate k false) = .failed .timedOut)
  ∧ ∀ bits : List Bool, bits.length < 1024 → imageRead ([false, false, false] ++ bits) = .failed .timedOut

/-! ### What every step keeps -/

/-- R1, R2, R4, R26, R30, R32, R33: every session record stays in range, with its flags and state agreeing with its
figures, and every presence filter within its 50 ms. -/
def Obligations.SessionsStayInRange : Prop := StepKeeps fun s => s.ConfigInRange ∧ s.SessionsInRange

/-- R116, R137, R157, R158: no pad's setpoint is above its command, no command above its intent, no intent above its
grant; the enable is on exactly while the setpoint is above 0, and a pad that is not eligible has none. -/
def Obligations.PowerStaysSafe : Prop := StepKeeps fun s => PadsDistinct s.cfg ∧ s.PowerSafe

/-- R168, R170, R171, R173: the in-force sets stay legal, the retry timer runs exactly while a retry entry acts, and a
session is HELD exactly while a holding entry is in force. -/
def Obligations.HeldPadsAreTheHeldSessions : Prop := StepKeeps State.FaultsSafe

/-- R43, R47, R50 to R52, R55, R56, R64, R74, R82, R84, R87, R105, R108, R109, R113: every queue, count, stamp, phase
error and round length stays in its range. -/
def Obligations.QueuesCountsAndRoundsStayInRange : Prop := StepKeeps fun s => s.CountsInRange ∧ s.RoundInRange

/-- R87, R88, R92: the own entry stays empty, and exactly the fresh heard entries hold a claim. -/
def Obligations.PeerTableStaysKept : Prop := StepKeeps fun s => s.Dormant ∧ s.PeersKept

/-- R57, R104, R141, R142, R145 to R148, R189: until start-up completes, and in CONFIG_FAIL, every block keeps its reset
values; while RESET has been low for 1 ms or the supply is below 2.85 V the part is in reset, or the reset comes next
(R184, R194); the ceiling stays between a tenth of L_cfg and the target of R147, and the CURTAIL filter counts only
while the pin shows the other level. -/
def Obligations.CeilingStaysBelowItsTarget : Prop :=
  StepKeeps fun s => s.ConfigInRange ∧ s.Dormant ∧ s.ResetFollows ∧ s.CurtailSafe

/-- R51, R96, R114, R150, R151, R180, R181: the node mode is COORDINATED exactly while its four inputs hold; the five
health conditions and CONFIG_CONFLICT are at all times what their owners hold; a free snapshot agrees with them. -/
def Obligations.ModeAndHealthFollowTheirOwners : Prop :=
  StepKeeps fun s => s.Dormant ∧ s.FaultsSafe ∧ s.ModeFollows ∧ s.HealthFollows ∧ s.SnapshotFollows

/-- R178, R179, R184: FAULT and ALERT are at all times driven as their rules say. -/
def Obligations.PinsFollowTheirRules : Prop := StepKeeps State.PinsFollow

/-- The properties that every step keeps hold right after reset. The round, the mode, the pins and the empty tables are
the manual's values; the blank configuration is the model's (log 5). -/
def Obligations.ResetHasEveryKeptProperty : Prop :=
  State.reset.Dormant ∧ State.reset.ResetFollows ∧ State.reset.ConfigInRange ∧ State.reset.SessionsInRange ∧ PadsDistinct State.reset.cfg
  ∧ State.reset.PowerSafe ∧ State.reset.FaultsSafe ∧ State.reset.CountsInRange ∧ State.reset.RoundInRange
  ∧ State.reset.PeersKept ∧ State.reset.CurtailSafe ∧ State.reset.ModeFollows ∧ State.reset.HealthFollows
  ∧ State.reset.SnapshotFollows ∧ State.reset.PinsFollow
end

