-- ==== Sys2Proof/Laws/State.lean ====
section
/-! SUPPORT. Laws/State.lean: what each straight-line update of the state leaves alone and what it writes, one lemma for
each field, true by unfolding, so that no later proof opens a record update. -/

namespace Sys2Proof.Machine

/-! ### State.updPort -/

@[simp] theorem State.updPort_pending (s : State) (p : PortId) (f : Port → Port) :
    (s.updPort p f).pending = s.pending := rfl
@[simp] theorem State.updPort_choice (s : State) (p : PortId) (f : Port → Port) :
    (s.updPort p f).choice = s.choice := rfl
@[simp] theorem State.updPort_pins (s : State) (p : PortId) (f : Port → Port) : (s.updPort p f).pins = s.pins := rfl
@[simp] theorem State.updPort_coming (s : State) (p : PortId) (f : Port → Port) :
    (s.updPort p f).coming = s.coming := rfl
@[simp] theorem State.updPort_resetHold (s : State) (p : PortId) (f : Port → Port) :
    (s.updPort p f).resetHold = s.resetHold := rfl
@[simp] theorem State.updPort_boot (s : State) (p : PortId) (f : Port → Port) : (s.updPort p f).boot = s.boot := rfl
@[simp] theorem State.updPort_nodeId (s : State) (p : PortId) (f : Port → Port) :
    (s.updPort p f).nodeId = s.nodeId := rfl
@[simp] theorem State.updPort_now (s : State) (p : PortId) (f : Port → Port) : (s.updPort p f).now = s.now := rfl
@[simp] theorem State.updPort_cfg (s : State) (p : PortId) (f : Port → Port) : (s.updPort p f).cfg = s.cfg := rfl
@[simp] theorem State.updPort_line (s : State) (p : PortId) (f : Port → Port) : (s.updPort p f).line = s.line := rfl
@[simp] theorem State.updPort_tx (s : State) (p : PortId) (f : Port → Port) : (s.updPort p f).tx = s.tx := rfl
@[simp] theorem State.updPort_peers (s : State) (p : PortId) (f : Port → Port) :
    (s.updPort p f).peers = s.peers := rfl
@[simp] theorem State.updPort_duplicateId (s : State) (p : PortId) (f : Port → Port) :
    (s.updPort p f).duplicateId = s.duplicateId := rfl
@[simp] theorem State.updPort_badKind (s : State) (p : PortId) (f : Port → Port) :
    (s.updPort p f).badKind = s.badKind := rfl
@[simp] theorem State.updPort_round (s : State) (p : PortId) (f : Port → Port) :
    (s.updPort p f).round = s.round := rfl
@[simp] theorem State.updPort_curtail (s : State) (p : PortId) (f : Port → Port) :
    (s.updPort p f).curtail = s.curtail := rfl
@[simp] theorem State.updPort_engine (s : State) (p : PortId) (f : Port → Port) :
    (s.updPort p f).engine = s.engine := rfl
@[simp] theorem State.updPort_sup (s : State) (p : PortId) (f : Port → Port) : (s.updPort p f).sup = s.sup := rfl
@[simp] theorem State.updPort_enabled (s : State) (p : PortId) (f : Port → Port) (q : PortId) :
    (s.updPort p f).enabled q = s.enabled q := rfl
theorem State.updPort_ports (s : State) (p : PortId) (f : Port → Port) :
    (s.updPort p f).ports = s.ports.set p (f s.ports[p]) := rfl

/-! ### State.updEnabled -/

@[simp] theorem State.updEnabled_pending (s : State) (f : PortId → Port → Port) :
    (s.updEnabled f).pending = s.pending := rfl
@[simp] theorem State.updEnabled_choice (s : State) (f : PortId → Port → Port) :
    (s.updEnabled f).choice = s.choice := rfl
@[simp] theorem State.updEnabled_pins (s : State) (f : PortId → Port → Port) : (s.updEnabled f).pins = s.pins := rfl
@[simp] theorem State.updEnabled_coming (s : State) (f : PortId → Port → Port) :
    (s.updEnabled f).coming = s.coming := rfl
@[simp] theorem State.updEnabled_resetHold (s : State) (f : PortId → Port → Port) :
    (s.updEnabled f).resetHold = s.resetHold := rfl
@[simp] theorem State.updEnabled_boot (s : State) (f : PortId → Port → Port) : (s.updEnabled f).boot = s.boot := rfl
@[simp] theorem State.updEnabled_nodeId (s : State) (f : PortId → Port → Port) :
    (s.updEnabled f).nodeId = s.nodeId := rfl
@[simp] theorem State.updEnabled_now (s : State) (f : PortId → Port → Port) : (s.updEnabled f).now = s.now := rfl
@[simp] theorem State.updEnabled_cfg (s : State) (f : PortId → Port → Port) : (s.updEnabled f).cfg = s.cfg := rfl
@[simp] theorem State.updEnabled_line (s : State) (f : PortId → Port → Port) : (s.updEnabled f).line = s.line := rfl
@[simp] theorem State.updEnabled_tx (s : State) (f : PortId → Port → Port) : (s.updEnabled f).tx = s.tx := rfl
@[simp] theorem State.updEnabled_peers (s : State) (f : PortId → Port → Port) :
    (s.updEnabled f).peers = s.peers := rfl
@[simp] theorem State.updEnabled_duplicateId (s : State) (f : PortId → Port → Port) :
    (s.updEnabled f).duplicateId = s.duplicateId := rfl
@[simp] theorem State.updEnabled_badKind (s : State) (f : PortId → Port → Port) :
    (s.updEnabled f).badKind = s.badKind := rfl
@[simp] theorem State.updEnabled_round (s : State) (f : PortId → Port → Port) :
    (s.updEnabled f).round = s.round := rfl
@[simp] theorem State.updEnabled_curtail (s : State) (f : PortId → Port → Port) :
    (s.updEnabled f).curtail = s.curtail := rfl
@[simp] theorem State.updEnabled_engine (s : State) (f : PortId → Port → Port) :
    (s.updEnabled f).engine = s.engine := rfl
@[simp] theorem State.updEnabled_sup (s : State) (f : PortId → Port → Port) : (s.updEnabled f).sup = s.sup := rfl
@[simp] theorem State.updEnabled_enabled (s : State) (f : PortId → Port → Port) (q : PortId) :
    (s.updEnabled f).enabled q = s.enabled q := rfl
theorem State.updEnabled_ports (s : State) (f : PortId → Port → Port) : (s.updEnabled f).ports =
    Vector.ofFn fun p : Fin 4 => if s.enabled p then f p s.ports[p] else s.ports[p] := rfl

/-! ### State.markStopped -/

@[simp] theorem State.markStopped_pending (s : State) (p : PortId) : (s.markStopped p).pending = s.pending := rfl
@[simp] theorem State.markStopped_choice (s : State) (p : PortId) : (s.markStopped p).choice = s.choice := rfl
@[simp] theorem State.markStopped_pins (s : State) (p : PortId) : (s.markStopped p).pins = s.pins := rfl
@[simp] theorem State.markStopped_coming (s : State) (p : PortId) : (s.markStopped p).coming = s.coming := rfl
@[simp] theorem State.markStopped_resetHold (s : State) (p : PortId) : (s.markStopped p).resetHold = s.resetHold := rfl
@[simp] theorem State.markStopped_boot (s : State) (p : PortId) : (s.markStopped p).boot = s.boot := rfl
@[simp] theorem State.markStopped_nodeId (s : State) (p : PortId) : (s.markStopped p).nodeId = s.nodeId := rfl
@[simp] theorem State.markStopped_now (s : State) (p : PortId) : (s.markStopped p).now = s.now := rfl
@[simp] theorem State.markStopped_cfg (s : State) (p : PortId) : (s.markStopped p).cfg = s.cfg := rfl
@[simp] theorem State.markStopped_ports (s : State) (p : PortId) : (s.markStopped p).ports = s.ports := rfl
@[simp] theorem State.markStopped_line (s : State) (p : PortId) : (s.markStopped p).line = s.line := rfl
@[simp] theorem State.markStopped_tx (s : State) (p : PortId) : (s.markStopped p).tx = s.tx := rfl
@[simp] theorem State.markStopped_peers (s : State) (p : PortId) : (s.markStopped p).peers = s.peers := rfl
@[simp] theorem State.markStopped_duplicateId (s : State) (p : PortId) :
    (s.markStopped p).duplicateId = s.duplicateId := rfl
@[simp] theorem State.markStopped_badKind (s : State) (p : PortId) : (s.markStopped p).badKind = s.badKind := rfl
@[simp] theorem State.markStopped_round (s : State) (p : PortId) : (s.markStopped p).round = s.round := rfl
@[simp] theorem State.markStopped_curtail (s : State) (p : PortId) : (s.markStopped p).curtail = s.curtail := rfl
@[simp] theorem State.markStopped_engine_boundary (s : State) (p : PortId) :
    (s.markStopped p).engine.boundary = s.engine.boundary := rfl
@[simp] theorem State.markStopped_engine_request (s : State) (p : PortId) :
    (s.markStopped p).engine.request = s.engine.request := rfl
@[simp] theorem State.markStopped_engine_agePending (s : State) (p : PortId) :
    (s.markStopped p).engine.agePending = s.engine.agePending := rfl
@[simp] theorem State.markStopped_engine_huntPending (s : State) (p : PortId) :
    (s.markStopped p).engine.huntPending = s.engine.huntPending := rfl
@[simp] theorem State.markStopped_engine_wanted (s : State) (p : PortId) :
    (s.markStopped p).engine.wanted = s.engine.wanted := rfl
@[simp] theorem State.markStopped_engine_short (s : State) (p : PortId) :
    (s.markStopped p).engine.short = s.engine.short := rfl
@[simp] theorem State.markStopped_engine_headroom (s : State) (p : PortId) :
    (s.markStopped p).engine.headroom = s.engine.headroom := rfl
@[simp] theorem State.markStopped_engine_completed (s : State) (p : PortId) :
    (s.markStopped p).engine.completed = s.engine.completed := rfl
@[simp] theorem State.markStopped_sup (s : State) (p : PortId) : (s.markStopped p).sup = s.sup := rfl
@[simp] theorem State.markStopped_enabled (s : State) (p : PortId) (q : PortId) :
    (s.markStopped p).enabled q = s.enabled q := rfl
@[simp] theorem State.markStopped_engine_inFlight (s : State) (p : PortId) : (s.markStopped p).engine.inFlight =
    s.engine.inFlight.map fun c => { c with stopped := c.stopped.set p true } := rfl

/-! ### State.placeCurtail -/

@[simp] theorem State.placeCurtail_pending (s : State) (a : Bool) : (s.placeCurtail a).pending = s.pending := rfl
@[simp] theorem State.placeCurtail_choice (s : State) (a : Bool) : (s.placeCurtail a).choice = s.choice := rfl
@[simp] theorem State.placeCurtail_pins (s : State) (a : Bool) : (s.placeCurtail a).pins = s.pins := rfl
@[simp] theorem State.placeCurtail_coming (s : State) (a : Bool) : (s.placeCurtail a).coming = s.coming := rfl
@[simp] theorem State.placeCurtail_resetHold (s : State) (a : Bool) : (s.placeCurtail a).resetHold = s.resetHold := rfl
@[simp] theorem State.placeCurtail_boot (s : State) (a : Bool) : (s.placeCurtail a).boot = s.boot := rfl
@[simp] theorem State.placeCurtail_nodeId (s : State) (a : Bool) : (s.placeCurtail a).nodeId = s.nodeId := rfl
@[simp] theorem State.placeCurtail_now (s : State) (a : Bool) : (s.placeCurtail a).now = s.now := rfl
@[simp] theorem State.placeCurtail_cfg (s : State) (a : Bool) : (s.placeCurtail a).cfg = s.cfg := rfl
@[simp] theorem State.placeCurtail_ports (s : State) (a : Bool) : (s.placeCurtail a).ports = s.ports := rfl
@[simp] theorem State.placeCurtail_line (s : State) (a : Bool) : (s.placeCurtail a).line = s.line := rfl
@[simp] theorem State.placeCurtail_peers (s : State) (a : Bool) : (s.placeCurtail a).peers = s.peers := rfl
@[simp] theorem State.placeCurtail_duplicateId (s : State) (a : Bool) :
    (s.placeCurtail a).duplicateId = s.duplicateId := rfl
@[simp] theorem State.placeCurtail_badKind (s : State) (a : Bool) : (s.placeCurtail a).badKind = s.badKind := rfl
@[simp] theorem State.placeCurtail_round (s : State) (a : Bool) : (s.placeCurtail a).round = s.round := rfl
@[simp] theorem State.placeCurtail_curtail (s : State) (a : Bool) : (s.placeCurtail a).curtail = s.curtail := rfl
@[simp] theorem State.placeCurtail_engine (s : State) (a : Bool) : (s.placeCurtail a).engine = s.engine := rfl
@[simp] theorem State.placeCurtail_sup (s : State) (a : Bool) : (s.placeCurtail a).sup = s.sup := rfl
@[simp] theorem State.placeCurtail_enabled (s : State) (a : Bool) (q : PortId) :
    (s.placeCurtail a).enabled q = s.enabled q := rfl
@[simp] theorem State.placeCurtail_tx (s : State) (a : Bool) :
    (s.placeCurtail a).tx = s.tx.placeCurtail ⟨a, s.cfg.pc⟩ := rfl

/-! ### State.queueAnnounce -/

@[simp] theorem State.queueAnnounce_pending (s : State) : (s.queueAnnounce).pending = s.pending := rfl
@[simp] theorem State.queueAnnounce_choice (s : State) : (s.queueAnnounce).choice = s.choice := rfl
@[simp] theorem State.queueAnnounce_pins (s : State) : (s.queueAnnounce).pins = s.pins := rfl
@[simp] theorem State.queueAnnounce_coming (s : State) : (s.queueAnnounce).coming = s.coming := rfl
@[simp] theorem State.queueAnnounce_resetHold (s : State) : (s.queueAnnounce).resetHold = s.resetHold := rfl
@[simp] theorem State.queueAnnounce_boot (s : State) : (s.queueAnnounce).boot = s.boot := rfl
@[simp] theorem State.queueAnnounce_nodeId (s : State) : (s.queueAnnounce).nodeId = s.nodeId := rfl
@[simp] theorem State.queueAnnounce_now (s : State) : (s.queueAnnounce).now = s.now := rfl
@[simp] theorem State.queueAnnounce_cfg (s : State) : (s.queueAnnounce).cfg = s.cfg := rfl
@[simp] theorem State.queueAnnounce_ports (s : State) : (s.queueAnnounce).ports = s.ports := rfl
@[simp] theorem State.queueAnnounce_line_acq (s : State) : (s.queueAnnounce).line.acq = s.line.acq := rfl
@[simp] theorem State.queueAnnounce_line_trial (s : State) : (s.queueAnnounce).line.trial = s.line.trial := rfl
@[simp] theorem State.queueAnnounce_line_errors (s : State) : (s.queueAnnounce).line.errors = s.line.errors := rfl
@[simp] theorem State.queueAnnounce_line_silence (s : State) : (s.queueAnnounce).line.silence = s.line.silence := rfl
@[simp] theorem State.queueAnnounce_line_heard (s : State) : (s.queueAnnounce).line.heard = s.line.heard := rfl
@[simp] theorem State.queueAnnounce_line_span (s : State) : (s.queueAnnounce).line.span = s.line.span := rfl
@[simp] theorem State.queueAnnounce_line_bad (s : State) : (s.queueAnnounce).line.bad = s.line.bad := rfl
@[simp] theorem State.queueAnnounce_line_aborted (s : State) : (s.queueAnnounce).line.aborted = s.line.aborted := rfl
@[simp] theorem State.queueAnnounce_line_foreign (s : State) : (s.queueAnnounce).line.foreign = s.line.foreign := rfl
@[simp] theorem State.queueAnnounce_line_overruns (s : State) :
    (s.queueAnnounce).line.overruns = s.line.overruns := rfl
@[simp] theorem State.queueAnnounce_line_stamp (s : State) : (s.queueAnnounce).line.stamp = s.line.stamp := rfl
@[simp] theorem State.queueAnnounce_line_queue (s : State) : (s.queueAnnounce).line.queue = s.line.queue := rfl
@[simp] theorem State.queueAnnounce_tx_urgent (s : State) : (s.queueAnnounce).tx.urgent = s.tx.urgent := rfl
@[simp] theorem State.queueAnnounce_tx_claim (s : State) : (s.queueAnnounce).tx.claim = s.tx.claim := rfl
@[simp] theorem State.queueAnnounce_tx_status (s : State) : (s.queueAnnounce).tx.status = s.tx.status := rfl
@[simp] theorem State.queueAnnounce_tx_onLine (s : State) : (s.queueAnnounce).tx.onLine = s.tx.onLine := rfl
@[simp] theorem State.queueAnnounce_tx_quiet (s : State) : (s.queueAnnounce).tx.quiet = s.tx.quiet := rfl
@[simp] theorem State.queueAnnounce_tx_backoff (s : State) : (s.queueAnnounce).tx.backoff = s.tx.backoff := rfl
@[simp] theorem State.queueAnnounce_tx_lfsr (s : State) : (s.queueAnnounce).tx.lfsr = s.tx.lfsr := rfl
@[simp] theorem State.queueAnnounce_tx_claimsDropped (s : State) :
    (s.queueAnnounce).tx.claimsDropped = s.tx.claimsDropped := rfl
@[simp] theorem State.queueAnnounce_tx_noticesDropped (s : State) :
    (s.queueAnnounce).tx.noticesDropped = s.tx.noticesDropped := rfl
@[simp] theorem State.queueAnnounce_tx_sent (s : State) : (s.queueAnnounce).tx.sent = s.tx.sent := rfl
@[simp] theorem State.queueAnnounce_peers (s : State) : (s.queueAnnounce).peers = s.peers := rfl
@[simp] theorem State.queueAnnounce_duplicateId (s : State) : (s.queueAnnounce).duplicateId = s.duplicateId := rfl
@[simp] theorem State.queueAnnounce_badKind (s : State) : (s.queueAnnounce).badKind = s.badKind := rfl
@[simp] theorem State.queueAnnounce_round (s : State) : (s.queueAnnounce).round = s.round := rfl
@[simp] theorem State.queueAnnounce_curtail (s : State) : (s.queueAnnounce).curtail = s.curtail := rfl
@[simp] theorem State.queueAnnounce_engine (s : State) : (s.queueAnnounce).engine = s.engine := rfl
@[simp] theorem State.queueAnnounce_sup (s : State) : (s.queueAnnounce).sup = s.sup := rfl
@[simp] theorem State.queueAnnounce_enabled (s : State) (q : PortId) :
    (s.queueAnnounce).enabled q = s.enabled q := rfl
@[simp] theorem State.queueAnnounce_line_announce (s : State) : s.queueAnnounce.line.announce = 0 := rfl
@[simp] theorem State.queueAnnounce_tx_announce (s : State) :
    s.queueAnnounce.tx.announce = some (s.announceMsg, 0) := rfl

/-! ### State.placeLatchStatus -/

@[simp] theorem State.placeLatchStatus_pending (s : State) : (s.placeLatchStatus).pending = s.pending := rfl
@[simp] theorem State.placeLatchStatus_choice (s : State) : (s.placeLatchStatus).choice = s.choice := rfl
@[simp] theorem State.placeLatchStatus_pins (s : State) : (s.placeLatchStatus).pins = s.pins := rfl
@[simp] theorem State.placeLatchStatus_coming (s : State) : (s.placeLatchStatus).coming = s.coming := rfl
@[simp] theorem State.placeLatchStatus_resetHold (s : State) : (s.placeLatchStatus).resetHold = s.resetHold := rfl
@[simp] theorem State.placeLatchStatus_boot (s : State) : (s.placeLatchStatus).boot = s.boot := rfl
@[simp] theorem State.placeLatchStatus_nodeId (s : State) : (s.placeLatchStatus).nodeId = s.nodeId := rfl
@[simp] theorem State.placeLatchStatus_now (s : State) : (s.placeLatchStatus).now = s.now := rfl
@[simp] theorem State.placeLatchStatus_cfg (s : State) : (s.placeLatchStatus).cfg = s.cfg := rfl
@[simp] theorem State.placeLatchStatus_ports (s : State) : (s.placeLatchStatus).ports = s.ports := rfl
@[simp] theorem State.placeLatchStatus_line (s : State) : (s.placeLatchStatus).line = s.line := rfl
@[simp] theorem State.placeLatchStatus_tx_urgent (s : State) : (s.placeLatchStatus).tx.urgent = s.tx.urgent := rfl
@[simp] theorem State.placeLatchStatus_tx_claim (s : State) : (s.placeLatchStatus).tx.claim = s.tx.claim := rfl
@[simp] theorem State.placeLatchStatus_tx_announce (s : State) :
    (s.placeLatchStatus).tx.announce = s.tx.announce := rfl
@[simp] theorem State.placeLatchStatus_tx_onLine (s : State) : (s.placeLatchStatus).tx.onLine = s.tx.onLine := rfl
@[simp] theorem State.placeLatchStatus_tx_quiet (s : State) : (s.placeLatchStatus).tx.quiet = s.tx.quiet := rfl
@[simp] theorem State.placeLatchStatus_tx_backoff (s : State) : (s.placeLatchStatus).tx.backoff = s.tx.backoff := rfl
@[simp] theorem State.placeLatchStatus_tx_lfsr (s : State) : (s.placeLatchStatus).tx.lfsr = s.tx.lfsr := rfl
@[simp] theorem State.placeLatchStatus_tx_claimsDropped (s : State) :
    (s.placeLatchStatus).tx.claimsDropped = s.tx.claimsDropped := rfl
@[simp] theorem State.placeLatchStatus_tx_noticesDropped (s : State) :
    (s.placeLatchStatus).tx.noticesDropped = s.tx.noticesDropped := rfl
@[simp] theorem State.placeLatchStatus_tx_sent (s : State) : (s.placeLatchStatus).tx.sent = s.tx.sent := rfl
@[simp] theorem State.placeLatchStatus_peers (s : State) : (s.placeLatchStatus).peers = s.peers := rfl
@[simp] theorem State.placeLatchStatus_duplicateId (s : State) :
    (s.placeLatchStatus).duplicateId = s.duplicateId := rfl
@[simp] theorem State.placeLatchStatus_badKind (s : State) : (s.placeLatchStatus).badKind = s.badKind := rfl
@[simp] theorem State.placeLatchStatus_round (s : State) : (s.placeLatchStatus).round = s.round := rfl
@[simp] theorem State.placeLatchStatus_curtail (s : State) : (s.placeLatchStatus).curtail = s.curtail := rfl
@[simp] theorem State.placeLatchStatus_engine (s : State) : (s.placeLatchStatus).engine = s.engine := rfl
@[simp] theorem State.placeLatchStatus_sup_conflict (s : State) :
    (s.placeLatchStatus).sup.conflict = s.sup.conflict := rfl
@[simp] theorem State.placeLatchStatus_sup_current (s : State) :
    (s.placeLatchStatus).sup.current = s.sup.current := rfl
@[simp] theorem State.placeLatchStatus_sup_reports (s : State) :
    (s.placeLatchStatus).sup.reports = s.sup.reports := rfl
@[simp] theorem State.placeLatchStatus_sup_latched (s : State) :
    (s.placeLatchStatus).sup.latched = s.sup.latched := rfl
@[simp] theorem State.placeLatchStatus_sup_recorded (s : State) :
    (s.placeLatchStatus).sup.recorded = s.sup.recorded := rfl
@[simp] theorem State.placeLatchStatus_sup_cause (s : State) : (s.placeLatchStatus).sup.cause = s.sup.cause := rfl
@[simp] theorem State.placeLatchStatus_sup_periodic (s : State) :
    (s.placeLatchStatus).sup.periodic = s.sup.periodic := rfl
@[simp] theorem State.placeLatchStatus_sup_faultPin (s : State) :
    (s.placeLatchStatus).sup.faultPin = s.sup.faultPin := rfl
@[simp] theorem State.placeLatchStatus_sup_alertPin (s : State) :
    (s.placeLatchStatus).sup.alertPin = s.sup.alertPin := rfl
@[simp] theorem State.placeLatchStatus_enabled (s : State) (q : PortId) :
    (s.placeLatchStatus).enabled q = s.enabled q := rfl
@[simp] theorem State.placeLatchStatus_tx_status (s : State) :
    s.placeLatchStatus.tx.status = some (s.statusMsg false s.sup.recorded, 0) := rfl
@[simp] theorem State.placeLatchStatus_sup_outstanding (s : State) : s.placeLatchStatus.sup.outstanding = true := rfl

/-! ### State.placePeriodicStatus -/

@[simp] theorem State.placePeriodicStatus_pending (s : State) : (s.placePeriodicStatus).pending = s.pending := rfl
@[simp] theorem State.placePeriodicStatus_choice (s : State) : (s.placePeriodicStatus).choice = s.choice := rfl
@[simp] theorem State.placePeriodicStatus_pins (s : State) : (s.placePeriodicStatus).pins = s.pins := rfl
@[simp] theorem State.placePeriodicStatus_coming (s : State) : (s.placePeriodicStatus).coming = s.coming := rfl
@[simp] theorem State.placePeriodicStatus_resetHold (s : State) : (s.placePeriodicStatus).resetHold = s.resetHold := rfl
@[simp] theorem State.placePeriodicStatus_boot (s : State) : (s.placePeriodicStatus).boot = s.boot := rfl
@[simp] theorem State.placePeriodicStatus_nodeId (s : State) : (s.placePeriodicStatus).nodeId = s.nodeId := rfl
@[simp] theorem State.placePeriodicStatus_now (s : State) : (s.placePeriodicStatus).now = s.now := rfl
@[simp] theorem State.placePeriodicStatus_cfg (s : State) : (s.placePeriodicStatus).cfg = s.cfg := rfl
@[simp] theorem State.placePeriodicStatus_ports (s : State) : (s.placePeriodicStatus).ports = s.ports := rfl
@[simp] theorem State.placePeriodicStatus_line (s : State) : (s.placePeriodicStatus).line = s.line := rfl
@[simp] theorem State.placePeriodicStatus_tx_urgent (s : State) :
    (s.placePeriodicStatus).tx.urgent = s.tx.urgent := rfl
@[simp] theorem State.placePeriodicStatus_tx_claim (s : State) : (s.placePeriodicStatus).tx.claim = s.tx.claim := rfl
@[simp] theorem State.placePeriodicStatus_tx_announce (s : State) :
    (s.placePeriodicStatus).tx.announce = s.tx.announce := rfl
@[simp] theorem State.placePeriodicStatus_tx_onLine (s : State) :
    (s.placePeriodicStatus).tx.onLine = s.tx.onLine := rfl
@[simp] theorem State.placePeriodicStatus_tx_quiet (s : State) : (s.placePeriodicStatus).tx.quiet = s.tx.quiet := rfl
@[simp] theorem State.placePeriodicStatus_tx_backoff (s : State) :
    (s.placePeriodicStatus).tx.backoff = s.tx.backoff := rfl
@[simp] theorem State.placePeriodicStatus_tx_lfsr (s : State) : (s.placePeriodicStatus).tx.lfsr = s.tx.lfsr := rfl
@[simp] theorem State.placePeriodicStatus_tx_claimsDropped (s : State) :
    (s.placePeriodicStatus).tx.claimsDropped = s.tx.claimsDropped := rfl
@[simp] theorem State.placePeriodicStatus_tx_noticesDropped (s : State) :
    (s.placePeriodicStatus).tx.noticesDropped = s.tx.noticesDropped := rfl
@[simp] theorem State.placePeriodicStatus_tx_sent (s : State) : (s.placePeriodicStatus).tx.sent = s.tx.sent := rfl
@[simp] theorem State.placePeriodicStatus_peers (s : State) : (s.placePeriodicStatus).peers = s.peers := rfl
@[simp] theorem State.placePeriodicStatus_duplicateId (s : State) :
    (s.placePeriodicStatus).duplicateId = s.duplicateId := rfl
@[simp] theorem State.placePeriodicStatus_badKind (s : State) : (s.placePeriodicStatus).badKind = s.badKind := rfl
@[simp] theorem State.placePeriodicStatus_round (s : State) : (s.placePeriodicStatus).round = s.round := rfl
@[simp] theorem State.placePeriodicStatus_curtail (s : State) : (s.placePeriodicStatus).curtail = s.curtail := rfl
@[simp] theorem State.placePeriodicStatus_engine (s : State) : (s.placePeriodicStatus).engine = s.engine := rfl
@[simp] theorem State.placePeriodicStatus_sup (s : State) : (s.placePeriodicStatus).sup = s.sup := rfl
@[simp] theorem State.placePeriodicStatus_enabled (s : State) (q : PortId) :
    (s.placePeriodicStatus).enabled q = s.enabled q := rfl
@[simp] theorem State.placePeriodicStatus_tx_status (s : State) :
    s.placePeriodicStatus.tx.status = some (s.statusMsg true s.sup.current, 0) := rfl

/-! ### State.latch -/

@[simp] theorem State.latch_pending (s : State) (h : Health) (c : Cause) : (s.latch h c).pending = s.pending := rfl
@[simp] theorem State.latch_choice (s : State) (h : Health) (c : Cause) : (s.latch h c).choice = s.choice := rfl
@[simp] theorem State.latch_pins (s : State) (h : Health) (c : Cause) : (s.latch h c).pins = s.pins := rfl
@[simp] theorem State.latch_coming (s : State) (h : Health) (c : Cause) : (s.latch h c).coming = s.coming := rfl
@[simp] theorem State.latch_resetHold (s : State) (h : Health) (c : Cause) :
    (s.latch h c).resetHold = s.resetHold := rfl
@[simp] theorem State.latch_boot (s : State) (h : Health) (c : Cause) : (s.latch h c).boot = s.boot := rfl
@[simp] theorem State.latch_nodeId (s : State) (h : Health) (c : Cause) : (s.latch h c).nodeId = s.nodeId := rfl
@[simp] theorem State.latch_now (s : State) (h : Health) (c : Cause) : (s.latch h c).now = s.now := rfl
@[simp] theorem State.latch_cfg (s : State) (h : Health) (c : Cause) : (s.latch h c).cfg = s.cfg := rfl
@[simp] theorem State.latch_ports (s : State) (h : Health) (c : Cause) : (s.latch h c).ports = s.ports := rfl
@[simp] theorem State.latch_line (s : State) (h : Health) (c : Cause) : (s.latch h c).line = s.line := rfl
@[simp] theorem State.latch_tx_urgent (s : State) (h : Health) (c : Cause) :
    (s.latch h c).tx.urgent = s.tx.urgent := rfl
@[simp] theorem State.latch_tx_claim (s : State) (h : Health) (c : Cause) : (s.latch h c).tx.claim = s.tx.claim := rfl
@[simp] theorem State.latch_tx_announce (s : State) (h : Health) (c : Cause) :
    (s.latch h c).tx.announce = s.tx.announce := rfl
@[simp] theorem State.latch_tx_onLine (s : State) (h : Health) (c : Cause) :
    (s.latch h c).tx.onLine = s.tx.onLine := rfl
@[simp] theorem State.latch_tx_quiet (s : State) (h : Health) (c : Cause) : (s.latch h c).tx.quiet = s.tx.quiet := rfl
@[simp] theorem State.latch_tx_backoff (s : State) (h : Health) (c : Cause) :
    (s.latch h c).tx.backoff = s.tx.backoff := rfl
@[simp] theorem State.latch_tx_lfsr (s : State) (h : Health) (c : Cause) : (s.latch h c).tx.lfsr = s.tx.lfsr := rfl
@[simp] theorem State.latch_tx_claimsDropped (s : State) (h : Health) (c : Cause) :
    (s.latch h c).tx.claimsDropped = s.tx.claimsDropped := rfl
@[simp] theorem State.latch_tx_noticesDropped (s : State) (h : Health) (c : Cause) :
    (s.latch h c).tx.noticesDropped = s.tx.noticesDropped := rfl
@[simp] theorem State.latch_tx_sent (s : State) (h : Health) (c : Cause) : (s.latch h c).tx.sent = s.tx.sent := rfl
@[simp] theorem State.latch_peers (s : State) (h : Health) (c : Cause) : (s.latch h c).peers = s.peers := rfl
@[simp] theorem State.latch_duplicateId (s : State) (h : Health) (c : Cause) :
    (s.latch h c).duplicateId = s.duplicateId := rfl
@[simp] theorem State.latch_badKind (s : State) (h : Health) (c : Cause) : (s.latch h c).badKind = s.badKind := rfl
@[simp] theorem State.latch_round (s : State) (h : Health) (c : Cause) : (s.latch h c).round = s.round := rfl
@[simp] theorem State.latch_curtail (s : State) (h : Health) (c : Cause) : (s.latch h c).curtail = s.curtail := rfl
@[simp] theorem State.latch_engine (s : State) (h : Health) (c : Cause) : (s.latch h c).engine = s.engine := rfl
@[simp] theorem State.latch_sup_conflict (s : State) (h : Health) (c : Cause) :
    (s.latch h c).sup.conflict = s.sup.conflict := rfl
@[simp] theorem State.latch_sup_current (s : State) (h : Health) (c : Cause) :
    (s.latch h c).sup.current = s.sup.current := rfl
@[simp] theorem State.latch_sup_reports (s : State) (h : Health) (c : Cause) :
    (s.latch h c).sup.reports = s.sup.reports := rfl
@[simp] theorem State.latch_sup_periodic (s : State) (h : Health) (c : Cause) :
    (s.latch h c).sup.periodic = s.sup.periodic := rfl
@[simp] theorem State.latch_sup_faultPin (s : State) (h : Health) (c : Cause) :
    (s.latch h c).sup.faultPin = s.sup.faultPin := rfl
@[simp] theorem State.latch_sup_alertPin (s : State) (h : Health) (c : Cause) :
    (s.latch h c).sup.alertPin = s.sup.alertPin := rfl
@[simp] theorem State.latch_enabled (s : State) (h : Health) (c : Cause) (q : PortId) :
    (s.latch h c).enabled q = s.enabled q := rfl
@[simp] theorem State.latch_sup_latched (s : State) (h : Health) (c : Cause) : (s.latch h c).sup.latched = true := rfl
@[simp] theorem State.latch_sup_recorded (s : State) (h : Health) (c : Cause) : (s.latch h c).sup.recorded = h := rfl
@[simp] theorem State.latch_sup_cause (s : State) (h : Health) (c : Cause) : (s.latch h c).sup.cause = c := rfl
@[simp] theorem State.latch_sup_outstanding (s : State) (h : Health) (c : Cause) :
    (s.latch h c).sup.outstanding = true := rfl
theorem State.latch_tx_status (s : State) (h : Health) (c : Cause) : (s.latch h c).tx.status =
    some (State.statusMsg { s with sup := { s.sup with latched := true, recorded := h, cause := c } } false h, 0) := rfl

/-! ### State.judgePins -/

@[simp] theorem State.judgePins_pending (s : State) : (s.judgePins).pending = s.pending := rfl
@[simp] theorem State.judgePins_choice (s : State) : (s.judgePins).choice = s.choice := rfl
@[simp] theorem State.judgePins_pins (s : State) : (s.judgePins).pins = s.pins := rfl
@[simp] theorem State.judgePins_coming (s : State) : (s.judgePins).coming = s.coming := rfl
@[simp] theorem State.judgePins_resetHold (s : State) : (s.judgePins).resetHold = s.resetHold := rfl
@[simp] theorem State.judgePins_boot (s : State) : (s.judgePins).boot = s.boot := rfl
@[simp] theorem State.judgePins_nodeId (s : State) : (s.judgePins).nodeId = s.nodeId := rfl
@[simp] theorem State.judgePins_now (s : State) : (s.judgePins).now = s.now := rfl
@[simp] theorem State.judgePins_cfg (s : State) : (s.judgePins).cfg = s.cfg := rfl
@[simp] theorem State.judgePins_ports (s : State) : (s.judgePins).ports = s.ports := rfl
@[simp] theorem State.judgePins_line (s : State) : (s.judgePins).line = s.line := rfl
@[simp] theorem State.judgePins_tx (s : State) : (s.judgePins).tx = s.tx := rfl
@[simp] theorem State.judgePins_peers (s : State) : (s.judgePins).peers = s.peers := rfl
@[simp] theorem State.judgePins_duplicateId (s : State) : (s.judgePins).duplicateId = s.duplicateId := rfl
@[simp] theorem State.judgePins_badKind (s : State) : (s.judgePins).badKind = s.badKind := rfl
@[simp] theorem State.judgePins_round (s : State) : (s.judgePins).round = s.round := rfl
@[simp] theorem State.judgePins_curtail (s : State) : (s.judgePins).curtail = s.curtail := rfl
@[simp] theorem State.judgePins_engine (s : State) : (s.judgePins).engine = s.engine := rfl
@[simp] theorem State.judgePins_sup_conflict (s : State) : (s.judgePins).sup.conflict = s.sup.conflict := rfl
@[simp] theorem State.judgePins_sup_current (s : State) : (s.judgePins).sup.current = s.sup.current := rfl
@[simp] theorem State.judgePins_sup_reports (s : State) : (s.judgePins).sup.reports = s.sup.reports := rfl
@[simp] theorem State.judgePins_sup_latched (s : State) : (s.judgePins).sup.latched = s.sup.latched := rfl
@[simp] theorem State.judgePins_sup_recorded (s : State) : (s.judgePins).sup.recorded = s.sup.recorded := rfl
@[simp] theorem State.judgePins_sup_cause (s : State) : (s.judgePins).sup.cause = s.sup.cause := rfl
@[simp] theorem State.judgePins_sup_outstanding (s : State) : (s.judgePins).sup.outstanding = s.sup.outstanding := rfl
@[simp] theorem State.judgePins_sup_periodic (s : State) : (s.judgePins).sup.periodic = s.sup.periodic := rfl
@[simp] theorem State.judgePins_enabled (s : State) (q : PortId) : (s.judgePins).enabled q = s.enabled q := rfl
@[simp] theorem State.judgePins_sup_faultPin (s : State) : s.judgePins.sup.faultPin = s.faultRule := rfl
@[simp] theorem State.judgePins_sup_alertPin (s : State) : s.judgePins.sup.alertPin = s.alertRule := rfl

/-! ### State.request -/

@[simp] theorem State.request_pending (s : State) : (s.request).pending = s.pending := rfl
@[simp] theorem State.request_choice (s : State) : (s.request).choice = s.choice := rfl
@[simp] theorem State.request_pins (s : State) : (s.request).pins = s.pins := rfl
@[simp] theorem State.request_coming (s : State) : (s.request).coming = s.coming := rfl
@[simp] theorem State.request_resetHold (s : State) : (s.request).resetHold = s.resetHold := rfl
@[simp] theorem State.request_boot (s : State) : (s.request).boot = s.boot := rfl
@[simp] theorem State.request_nodeId (s : State) : (s.request).nodeId = s.nodeId := rfl
@[simp] theorem State.request_now (s : State) : (s.request).now = s.now := rfl
@[simp] theorem State.request_cfg (s : State) : (s.request).cfg = s.cfg := rfl
@[simp] theorem State.request_ports (s : State) : (s.request).ports = s.ports := rfl
@[simp] theorem State.request_line (s : State) : (s.request).line = s.line := rfl
@[simp] theorem State.request_tx (s : State) : (s.request).tx = s.tx := rfl
@[simp] theorem State.request_peers (s : State) : (s.request).peers = s.peers := rfl
@[simp] theorem State.request_duplicateId (s : State) : (s.request).duplicateId = s.duplicateId := rfl
@[simp] theorem State.request_badKind (s : State) : (s.request).badKind = s.badKind := rfl
@[simp] theorem State.request_round (s : State) : (s.request).round = s.round := rfl
@[simp] theorem State.request_curtail (s : State) : (s.request).curtail = s.curtail := rfl
@[simp] theorem State.request_engine_inFlight (s : State) : (s.request).engine.inFlight = s.engine.inFlight := rfl
@[simp] theorem State.request_engine_boundary (s : State) : (s.request).engine.boundary = s.engine.boundary := rfl
@[simp] theorem State.request_engine_request (s : State) : (s.request).engine.request = s.engine.request := rfl
@[simp] theorem State.request_engine_agePending (s : State) :
    (s.request).engine.agePending = s.engine.agePending := rfl
@[simp] theorem State.request_engine_huntPending (s : State) :
    (s.request).engine.huntPending = s.engine.huntPending := rfl
@[simp] theorem State.request_engine_short (s : State) : (s.request).engine.short = s.engine.short := rfl
@[simp] theorem State.request_engine_headroom (s : State) : (s.request).engine.headroom = s.engine.headroom := rfl
@[simp] theorem State.request_engine_completed (s : State) : (s.request).engine.completed = s.engine.completed := rfl
@[simp] theorem State.request_sup (s : State) : (s.request).sup = s.sup := rfl
@[simp] theorem State.request_enabled (s : State) (q : PortId) : (s.request).enabled q = s.enabled q := rfl
@[simp] theorem State.request_engine_wanted (s : State) : s.request.engine.wanted = true := rfl

/-! ### State.retarget -/

@[simp] theorem State.retarget_pending (s : State) : (s.retarget).pending = s.pending := rfl
@[simp] theorem State.retarget_choice (s : State) : (s.retarget).choice = s.choice := rfl
@[simp] theorem State.retarget_pins (s : State) : (s.retarget).pins = s.pins := rfl
@[simp] theorem State.retarget_coming (s : State) : (s.retarget).coming = s.coming := rfl
@[simp] theorem State.retarget_resetHold (s : State) : (s.retarget).resetHold = s.resetHold := rfl
@[simp] theorem State.retarget_boot (s : State) : (s.retarget).boot = s.boot := rfl
@[simp] theorem State.retarget_nodeId (s : State) : (s.retarget).nodeId = s.nodeId := rfl
@[simp] theorem State.retarget_now (s : State) : (s.retarget).now = s.now := rfl
@[simp] theorem State.retarget_cfg (s : State) : (s.retarget).cfg = s.cfg := rfl
@[simp] theorem State.retarget_ports (s : State) : (s.retarget).ports = s.ports := rfl
@[simp] theorem State.retarget_line (s : State) : (s.retarget).line = s.line := rfl
@[simp] theorem State.retarget_tx (s : State) : (s.retarget).tx = s.tx := rfl
@[simp] theorem State.retarget_peers (s : State) : (s.retarget).peers = s.peers := rfl
@[simp] theorem State.retarget_duplicateId (s : State) : (s.retarget).duplicateId = s.duplicateId := rfl
@[simp] theorem State.retarget_badKind (s : State) : (s.retarget).badKind = s.badKind := rfl
@[simp] theorem State.retarget_round (s : State) : (s.retarget).round = s.round := rfl
@[simp] theorem State.retarget_curtail_pin (s : State) : (s.retarget).curtail.pin = s.curtail.pin := rfl
@[simp] theorem State.retarget_curtail_hold (s : State) : (s.retarget).curtail.hold = s.curtail.hold := rfl
@[simp] theorem State.retarget_curtail_localForce (s : State) :
    (s.retarget).curtail.localForce = s.curtail.localForce := rfl
@[simp] theorem State.retarget_curtail_set (s : State) : (s.retarget).curtail.set = s.curtail.set := rfl
@[simp] theorem State.retarget_curtail_mode (s : State) : (s.retarget).curtail.mode = s.curtail.mode := rfl
@[simp] theorem State.retarget_engine (s : State) : (s.retarget).engine = s.engine := rfl
@[simp] theorem State.retarget_sup (s : State) : (s.retarget).sup = s.sup := rfl
@[simp] theorem State.retarget_enabled (s : State) (q : PortId) : (s.retarget).enabled q = s.enabled q := rfl
@[simp] theorem State.retarget_curtail_target (s : State) : s.retarget.curtail.target = s.curtailTarget := rfl
@[simp] theorem State.retarget_curtail_ceiling (s : State) :
    s.retarget.curtail.ceiling = min s.curtail.ceiling s.curtailTarget := rfl

/-! ### State.judgeConflict -/

@[simp] theorem State.judgeConflict_pending (s : State) : (s.judgeConflict).pending = s.pending := rfl
@[simp] theorem State.judgeConflict_choice (s : State) : (s.judgeConflict).choice = s.choice := rfl
@[simp] theorem State.judgeConflict_pins (s : State) : (s.judgeConflict).pins = s.pins := rfl
@[simp] theorem State.judgeConflict_coming (s : State) : (s.judgeConflict).coming = s.coming := rfl
@[simp] theorem State.judgeConflict_resetHold (s : State) : (s.judgeConflict).resetHold = s.resetHold := rfl
@[simp] theorem State.judgeConflict_boot (s : State) : (s.judgeConflict).boot = s.boot := rfl
@[simp] theorem State.judgeConflict_nodeId (s : State) : (s.judgeConflict).nodeId = s.nodeId := rfl
@[simp] theorem State.judgeConflict_now (s : State) : (s.judgeConflict).now = s.now := rfl
@[simp] theorem State.judgeConflict_cfg (s : State) : (s.judgeConflict).cfg = s.cfg := rfl
@[simp] theorem State.judgeConflict_ports (s : State) : (s.judgeConflict).ports = s.ports := rfl
@[simp] theorem State.judgeConflict_line (s : State) : (s.judgeConflict).line = s.line := rfl
@[simp] theorem State.judgeConflict_tx (s : State) : (s.judgeConflict).tx = s.tx := rfl
@[simp] theorem State.judgeConflict_peers (s : State) : (s.judgeConflict).peers = s.peers := rfl
@[simp] theorem State.judgeConflict_duplicateId (s : State) : (s.judgeConflict).duplicateId = s.duplicateId := rfl
@[simp] theorem State.judgeConflict_badKind (s : State) : (s.judgeConflict).badKind = s.badKind := rfl
@[simp] theorem State.judgeConflict_round (s : State) : (s.judgeConflict).round = s.round := rfl
@[simp] theorem State.judgeConflict_curtail (s : State) : (s.judgeConflict).curtail = s.curtail := rfl
@[simp] theorem State.judgeConflict_engine (s : State) : (s.judgeConflict).engine = s.engine := rfl
@[simp] theorem State.judgeConflict_sup_current (s : State) : (s.judgeConflict).sup.current = s.sup.current := rfl
@[simp] theorem State.judgeConflict_sup_reports (s : State) : (s.judgeConflict).sup.reports = s.sup.reports := rfl
@[simp] theorem State.judgeConflict_sup_latched (s : State) : (s.judgeConflict).sup.latched = s.sup.latched := rfl
@[simp] theorem State.judgeConflict_sup_recorded (s : State) : (s.judgeConflict).sup.recorded = s.sup.recorded := rfl
@[simp] theorem State.judgeConflict_sup_cause (s : State) : (s.judgeConflict).sup.cause = s.sup.cause := rfl
@[simp] theorem State.judgeConflict_sup_outstanding (s : State) :
    (s.judgeConflict).sup.outstanding = s.sup.outstanding := rfl
@[simp] theorem State.judgeConflict_sup_periodic (s : State) : (s.judgeConflict).sup.periodic = s.sup.periodic := rfl
@[simp] theorem State.judgeConflict_sup_faultPin (s : State) : (s.judgeConflict).sup.faultPin = s.sup.faultPin := rfl
@[simp] theorem State.judgeConflict_sup_alertPin (s : State) : (s.judgeConflict).sup.alertPin = s.sup.alertPin := rfl
@[simp] theorem State.judgeConflict_enabled (s : State) (q : PortId) :
    (s.judgeConflict).enabled q = s.enabled q := rfl
@[simp] theorem State.judgeConflict_sup_conflict (s : State) : s.judgeConflict.sup.conflict = s.anyIncompatible := rfl

/-! ### State.dropPhaseErrors -/

@[simp] theorem State.dropPhaseErrors_pending (s : State) : (s.dropPhaseErrors).pending = s.pending := by
  simp only [State.dropPhaseErrors]
@[simp] theorem State.dropPhaseErrors_choice (s : State) : (s.dropPhaseErrors).choice = s.choice := by
  simp only [State.dropPhaseErrors]
@[simp] theorem State.dropPhaseErrors_pins (s : State) : (s.dropPhaseErrors).pins = s.pins := by
  simp only [State.dropPhaseErrors]
@[simp] theorem State.dropPhaseErrors_coming (s : State) : (s.dropPhaseErrors).coming = s.coming := by
  simp only [State.dropPhaseErrors]
@[simp] theorem State.dropPhaseErrors_resetHold (s : State) : (s.dropPhaseErrors).resetHold = s.resetHold := by
  simp only [State.dropPhaseErrors]
@[simp] theorem State.dropPhaseErrors_boot (s : State) : (s.dropPhaseErrors).boot = s.boot := by
  simp only [State.dropPhaseErrors]
@[simp] theorem State.dropPhaseErrors_nodeId (s : State) : (s.dropPhaseErrors).nodeId = s.nodeId := by
  simp only [State.dropPhaseErrors]
@[simp] theorem State.dropPhaseErrors_now (s : State) : (s.dropPhaseErrors).now = s.now := by
  simp only [State.dropPhaseErrors]
@[simp] theorem State.dropPhaseErrors_cfg (s : State) : (s.dropPhaseErrors).cfg = s.cfg := by
  simp only [State.dropPhaseErrors]
@[simp] theorem State.dropPhaseErrors_ports (s : State) : (s.dropPhaseErrors).ports = s.ports := by
  simp only [State.dropPhaseErrors]
@[simp] theorem State.dropPhaseErrors_line (s : State) : (s.dropPhaseErrors).line = s.line := by
  simp only [State.dropPhaseErrors]
@[simp] theorem State.dropPhaseErrors_tx (s : State) : (s.dropPhaseErrors).tx = s.tx := by
  simp only [State.dropPhaseErrors]
@[simp] theorem State.dropPhaseErrors_duplicateId (s : State) : (s.dropPhaseErrors).duplicateId = s.duplicateId := by
  simp only [State.dropPhaseErrors]
@[simp] theorem State.dropPhaseErrors_badKind (s : State) : (s.dropPhaseErrors).badKind = s.badKind := by
  simp only [State.dropPhaseErrors]
@[simp] theorem State.dropPhaseErrors_round (s : State) : (s.dropPhaseErrors).round = s.round := by
  simp only [State.dropPhaseErrors]
@[simp] theorem State.dropPhaseErrors_curtail (s : State) : (s.dropPhaseErrors).curtail = s.curtail := by
  simp only [State.dropPhaseErrors]
@[simp] theorem State.dropPhaseErrors_engine (s : State) : (s.dropPhaseErrors).engine = s.engine := by
  simp only [State.dropPhaseErrors]
@[simp] theorem State.dropPhaseErrors_sup (s : State) : (s.dropPhaseErrors).sup = s.sup := by
  simp only [State.dropPhaseErrors]
@[simp] theorem State.dropPhaseErrors_peer (s : State) (id : NodeId) :
    s.dropPhaseErrors.peers[id] = { s.peers[id] with phaseErr := none } := by simp [State.dropPhaseErrors]

/-! ### State.agePeers -/

@[simp] theorem State.agePeers_pending (s : State) : (s.agePeers).pending = s.pending := by
  simp only [State.agePeers, State.judgeConflict]
@[simp] theorem State.agePeers_choice (s : State) : (s.agePeers).choice = s.choice := by
  simp only [State.agePeers, State.judgeConflict]
@[simp] theorem State.agePeers_pins (s : State) : (s.agePeers).pins = s.pins := by
  simp only [State.agePeers, State.judgeConflict]
@[simp] theorem State.agePeers_coming (s : State) : (s.agePeers).coming = s.coming := by
  simp only [State.agePeers, State.judgeConflict]
@[simp] theorem State.agePeers_resetHold (s : State) : (s.agePeers).resetHold = s.resetHold := by
  simp only [State.agePeers, State.judgeConflict]
@[simp] theorem State.agePeers_boot (s : State) : (s.agePeers).boot = s.boot := by
  simp only [State.agePeers, State.judgeConflict]
@[simp] theorem State.agePeers_nodeId (s : State) : (s.agePeers).nodeId = s.nodeId := by
  simp only [State.agePeers, State.judgeConflict]
@[simp] theorem State.agePeers_now (s : State) : (s.agePeers).now = s.now := by
  simp only [State.agePeers, State.judgeConflict]
@[simp] theorem State.agePeers_cfg (s : State) : (s.agePeers).cfg = s.cfg := by
  simp only [State.agePeers, State.judgeConflict]
@[simp] theorem State.agePeers_ports (s : State) : (s.agePeers).ports = s.ports := by
  simp only [State.agePeers, State.judgeConflict]
@[simp] theorem State.agePeers_line (s : State) : (s.agePeers).line = s.line := by
  simp only [State.agePeers, State.judgeConflict]
@[simp] theorem State.agePeers_tx (s : State) : (s.agePeers).tx = s.tx := by
  simp only [State.agePeers, State.judgeConflict]
@[simp] theorem State.agePeers_duplicateId (s : State) : (s.agePeers).duplicateId = s.duplicateId := by
  simp only [State.agePeers, State.judgeConflict]
@[simp] theorem State.agePeers_badKind (s : State) : (s.agePeers).badKind = s.badKind := by
  simp only [State.agePeers, State.judgeConflict]
@[simp] theorem State.agePeers_round (s : State) : (s.agePeers).round = s.round := by
  simp only [State.agePeers, State.judgeConflict]
@[simp] theorem State.agePeers_curtail (s : State) : (s.agePeers).curtail = s.curtail := by
  simp only [State.agePeers, State.judgeConflict]
@[simp] theorem State.agePeers_engine (s : State) : (s.agePeers).engine = s.engine := by
  simp only [State.agePeers, State.judgeConflict]
@[simp] theorem State.agePeers_sup_current (s : State) : (s.agePeers).sup.current = s.sup.current := by
  simp only [State.agePeers, State.judgeConflict]
@[simp] theorem State.agePeers_sup_reports (s : State) : (s.agePeers).sup.reports = s.sup.reports := by
  simp only [State.agePeers, State.judgeConflict]
@[simp] theorem State.agePeers_sup_latched (s : State) : (s.agePeers).sup.latched = s.sup.latched := by
  simp only [State.agePeers, State.judgeConflict]
@[simp] theorem State.agePeers_sup_recorded (s : State) : (s.agePeers).sup.recorded = s.sup.recorded := by
  simp only [State.agePeers, State.judgeConflict]
@[simp] theorem State.agePeers_sup_cause (s : State) : (s.agePeers).sup.cause = s.sup.cause := by
  simp only [State.agePeers, State.judgeConflict]
@[simp] theorem State.agePeers_sup_outstanding (s : State) : (s.agePeers).sup.outstanding = s.sup.outstanding := by
  simp only [State.agePeers, State.judgeConflict]
@[simp] theorem State.agePeers_sup_periodic (s : State) : (s.agePeers).sup.periodic = s.sup.periodic := by
  simp only [State.agePeers, State.judgeConflict]
@[simp] theorem State.agePeers_sup_faultPin (s : State) : (s.agePeers).sup.faultPin = s.sup.faultPin := by
  simp only [State.agePeers, State.judgeConflict]
@[simp] theorem State.agePeers_sup_alertPin (s : State) : (s.agePeers).sup.alertPin = s.sup.alertPin := by
  simp only [State.agePeers, State.judgeConflict]
theorem State.agePeers_peer (s : State) (id : NodeId) : s.agePeers.peers[id] =
    if s.peers[id].heard ∧ id ≠ s.nodeId then s.peers[id].atAge (min 15 (s.peers[id].age + 1))
    else s.peers[id] := by
  simp [State.agePeers]
theorem State.agePeers_sup_conflict (s : State) : s.agePeers.sup.conflict = s.agePeers.anyIncompatible := rfl

/-! ### State.losePeers -/

@[simp] theorem State.losePeers_pending (s : State) : (s.losePeers).pending = s.pending := by
  simp only [State.losePeers, State.judgeConflict]
@[simp] theorem State.losePeers_choice (s : State) : (s.losePeers).choice = s.choice := by
  simp only [State.losePeers, State.judgeConflict]
@[simp] theorem State.losePeers_pins (s : State) : (s.losePeers).pins = s.pins := by
  simp only [State.losePeers, State.judgeConflict]
@[simp] theorem State.losePeers_coming (s : State) : (s.losePeers).coming = s.coming := by
  simp only [State.losePeers, State.judgeConflict]
@[simp] theorem State.losePeers_resetHold (s : State) : (s.losePeers).resetHold = s.resetHold := by
  simp only [State.losePeers, State.judgeConflict]
@[simp] theorem State.losePeers_boot (s : State) : (s.losePeers).boot = s.boot := by
  simp only [State.losePeers, State.judgeConflict]
@[simp] theorem State.losePeers_nodeId (s : State) : (s.losePeers).nodeId = s.nodeId := by
  simp only [State.losePeers, State.judgeConflict]
@[simp] theorem State.losePeers_now (s : State) : (s.losePeers).now = s.now := by
  simp only [State.losePeers, State.judgeConflict]
@[simp] theorem State.losePeers_cfg (s : State) : (s.losePeers).cfg = s.cfg := by
  simp only [State.losePeers, State.judgeConflict]
@[simp] theorem State.losePeers_ports (s : State) : (s.losePeers).ports = s.ports := by
  simp only [State.losePeers, State.judgeConflict]
@[simp] theorem State.losePeers_line (s : State) : (s.losePeers).line = s.line := by
  simp only [State.losePeers, State.judgeConflict]
@[simp] theorem State.losePeers_tx (s : State) : (s.losePeers).tx = s.tx := by
  simp only [State.losePeers, State.judgeConflict]
@[simp] theorem State.losePeers_duplicateId (s : State) : (s.losePeers).duplicateId = s.duplicateId := by
  simp only [State.losePeers, State.judgeConflict]
@[simp] theorem State.losePeers_badKind (s : State) : (s.losePeers).badKind = s.badKind := by
  simp only [State.losePeers, State.judgeConflict]
@[simp] theorem State.losePeers_round (s : State) : (s.losePeers).round = s.round := by
  simp only [State.losePeers, State.judgeConflict]
@[simp] theorem State.losePeers_curtail (s : State) : (s.losePeers).curtail = s.curtail := by
  simp only [State.losePeers, State.judgeConflict]
@[simp] theorem State.losePeers_engine (s : State) : (s.losePeers).engine = s.engine := by
  simp only [State.losePeers, State.judgeConflict]
@[simp] theorem State.losePeers_sup_current (s : State) : (s.losePeers).sup.current = s.sup.current := by
  simp only [State.losePeers, State.judgeConflict]
@[simp] theorem State.losePeers_sup_reports (s : State) : (s.losePeers).sup.reports = s.sup.reports := by
  simp only [State.losePeers, State.judgeConflict]
@[simp] theorem State.losePeers_sup_latched (s : State) : (s.losePeers).sup.latched = s.sup.latched := by
  simp only [State.losePeers, State.judgeConflict]
@[simp] theorem State.losePeers_sup_recorded (s : State) : (s.losePeers).sup.recorded = s.sup.recorded := by
  simp only [State.losePeers, State.judgeConflict]
@[simp] theorem State.losePeers_sup_cause (s : State) : (s.losePeers).sup.cause = s.sup.cause := by
  simp only [State.losePeers, State.judgeConflict]
@[simp] theorem State.losePeers_sup_outstanding (s : State) : (s.losePeers).sup.outstanding = s.sup.outstanding := by
  simp only [State.losePeers, State.judgeConflict]
@[simp] theorem State.losePeers_sup_periodic (s : State) : (s.losePeers).sup.periodic = s.sup.periodic := by
  simp only [State.losePeers, State.judgeConflict]
@[simp] theorem State.losePeers_sup_faultPin (s : State) : (s.losePeers).sup.faultPin = s.sup.faultPin := by
  simp only [State.losePeers, State.judgeConflict]
@[simp] theorem State.losePeers_sup_alertPin (s : State) : (s.losePeers).sup.alertPin = s.sup.alertPin := by
  simp only [State.losePeers, State.judgeConflict]
theorem State.losePeers_peer (s : State) (id : NodeId) : s.losePeers.peers[id] =
    if s.peers[id].heard ∧ id ≠ s.nodeId then s.peers[id].atAge 4 else s.peers[id] := by
  simp [State.losePeers]
theorem State.losePeers_sup_conflict (s : State) : s.losePeers.sup.conflict = s.losePeers.anyIncompatible := rfl

/-! ### State.removeOldest -/

@[simp] theorem State.removeOldest_pending (s : State) : (s.removeOldest).pending = s.pending := rfl
@[simp] theorem State.removeOldest_choice (s : State) : (s.removeOldest).choice = s.choice := rfl
@[simp] theorem State.removeOldest_pins (s : State) : (s.removeOldest).pins = s.pins := rfl
@[simp] theorem State.removeOldest_coming (s : State) : (s.removeOldest).coming = s.coming := rfl
@[simp] theorem State.removeOldest_resetHold (s : State) : (s.removeOldest).resetHold = s.resetHold := rfl
@[simp] theorem State.removeOldest_boot (s : State) : (s.removeOldest).boot = s.boot := rfl
@[simp] theorem State.removeOldest_nodeId (s : State) : (s.removeOldest).nodeId = s.nodeId := rfl
@[simp] theorem State.removeOldest_now (s : State) : (s.removeOldest).now = s.now := rfl
@[simp] theorem State.removeOldest_cfg (s : State) : (s.removeOldest).cfg = s.cfg := rfl
@[simp] theorem State.removeOldest_ports (s : State) : (s.removeOldest).ports = s.ports := rfl
@[simp] theorem State.removeOldest_line_acq (s : State) : (s.removeOldest).line.acq = s.line.acq := rfl
@[simp] theorem State.removeOldest_line_trial (s : State) : (s.removeOldest).line.trial = s.line.trial := rfl
@[simp] theorem State.removeOldest_line_errors (s : State) : (s.removeOldest).line.errors = s.line.errors := rfl
@[simp] theorem State.removeOldest_line_silence (s : State) : (s.removeOldest).line.silence = s.line.silence := rfl
@[simp] theorem State.removeOldest_line_heard (s : State) : (s.removeOldest).line.heard = s.line.heard := rfl
@[simp] theorem State.removeOldest_line_span (s : State) : (s.removeOldest).line.span = s.line.span := rfl
@[simp] theorem State.removeOldest_line_announce (s : State) : (s.removeOldest).line.announce = s.line.announce := rfl
@[simp] theorem State.removeOldest_line_bad (s : State) : (s.removeOldest).line.bad = s.line.bad := rfl
@[simp] theorem State.removeOldest_line_aborted (s : State) : (s.removeOldest).line.aborted = s.line.aborted := rfl
@[simp] theorem State.removeOldest_line_foreign (s : State) : (s.removeOldest).line.foreign = s.line.foreign := rfl
@[simp] theorem State.removeOldest_line_overruns (s : State) : (s.removeOldest).line.overruns = s.line.overruns := rfl
@[simp] theorem State.removeOldest_line_stamp (s : State) : (s.removeOldest).line.stamp = s.line.stamp := rfl
@[simp] theorem State.removeOldest_tx (s : State) : (s.removeOldest).tx = s.tx := rfl
@[simp] theorem State.removeOldest_peers (s : State) : (s.removeOldest).peers = s.peers := rfl
@[simp] theorem State.removeOldest_duplicateId (s : State) : (s.removeOldest).duplicateId = s.duplicateId := rfl
@[simp] theorem State.removeOldest_badKind (s : State) : (s.removeOldest).badKind = s.badKind := rfl
@[simp] theorem State.removeOldest_round (s : State) : (s.removeOldest).round = s.round := rfl
@[simp] theorem State.removeOldest_curtail (s : State) : (s.removeOldest).curtail = s.curtail := rfl
@[simp] theorem State.removeOldest_engine (s : State) : (s.removeOldest).engine = s.engine := rfl
@[simp] theorem State.removeOldest_sup (s : State) : (s.removeOldest).sup = s.sup := rfl
@[simp] theorem State.removeOldest_enabled (s : State) (q : PortId) : (s.removeOldest).enabled q = s.enabled q := rfl
@[simp] theorem State.removeOldest_line_queue (s : State) : s.removeOldest.line.queue = s.line.queue.tail := rfl

/-! ### State.arrival -/

@[simp] theorem State.arrival_pending (s : State) (age quiet : Nat) : (s.arrival age quiet).pending = s.pending := rfl
@[simp] theorem State.arrival_choice (s : State) (age quiet : Nat) : (s.arrival age quiet).choice = s.choice := rfl
@[simp] theorem State.arrival_pins (s : State) (age quiet : Nat) : (s.arrival age quiet).pins = s.pins := rfl
@[simp] theorem State.arrival_coming (s : State) (age quiet : Nat) : (s.arrival age quiet).coming = s.coming := rfl
@[simp] theorem State.arrival_resetHold (s : State) (age quiet : Nat) :
    (s.arrival age quiet).resetHold = s.resetHold := rfl
@[simp] theorem State.arrival_boot (s : State) (age quiet : Nat) : (s.arrival age quiet).boot = s.boot := rfl
@[simp] theorem State.arrival_nodeId (s : State) (age quiet : Nat) : (s.arrival age quiet).nodeId = s.nodeId := rfl
@[simp] theorem State.arrival_now (s : State) (age quiet : Nat) : (s.arrival age quiet).now = s.now := rfl
@[simp] theorem State.arrival_cfg (s : State) (age quiet : Nat) : (s.arrival age quiet).cfg = s.cfg := rfl
@[simp] theorem State.arrival_ports (s : State) (age quiet : Nat) : (s.arrival age quiet).ports = s.ports := rfl
@[simp] theorem State.arrival_line_acq (s : State) (age quiet : Nat) :
    (s.arrival age quiet).line.acq = s.line.acq := rfl
@[simp] theorem State.arrival_line_trial (s : State) (age quiet : Nat) :
    (s.arrival age quiet).line.trial = s.line.trial := rfl
@[simp] theorem State.arrival_line_errors (s : State) (age quiet : Nat) :
    (s.arrival age quiet).line.errors = s.line.errors := rfl
@[simp] theorem State.arrival_line_silence (s : State) (age quiet : Nat) :
    (s.arrival age quiet).line.silence = s.line.silence := rfl
@[simp] theorem State.arrival_line_heard (s : State) (age quiet : Nat) :
    (s.arrival age quiet).line.heard = s.line.heard := rfl
@[simp] theorem State.arrival_line_span (s : State) (age quiet : Nat) :
    (s.arrival age quiet).line.span = s.line.span := rfl
@[simp] theorem State.arrival_line_announce (s : State) (age quiet : Nat) :
    (s.arrival age quiet).line.announce = s.line.announce := rfl
@[simp] theorem State.arrival_line_bad (s : State) (age quiet : Nat) :
    (s.arrival age quiet).line.bad = s.line.bad := rfl
@[simp] theorem State.arrival_line_aborted (s : State) (age quiet : Nat) :
    (s.arrival age quiet).line.aborted = s.line.aborted := rfl
@[simp] theorem State.arrival_line_foreign (s : State) (age quiet : Nat) :
    (s.arrival age quiet).line.foreign = s.line.foreign := rfl
@[simp] theorem State.arrival_line_overruns (s : State) (age quiet : Nat) :
    (s.arrival age quiet).line.overruns = s.line.overruns := rfl
@[simp] theorem State.arrival_line_queue (s : State) (age quiet : Nat) :
    (s.arrival age quiet).line.queue = s.line.queue := rfl
@[simp] theorem State.arrival_tx_urgent (s : State) (age quiet : Nat) :
    (s.arrival age quiet).tx.urgent = s.tx.urgent := rfl
@[simp] theorem State.arrival_tx_claim (s : State) (age quiet : Nat) :
    (s.arrival age quiet).tx.claim = s.tx.claim := rfl
@[simp] theorem State.arrival_tx_status (s : State) (age quiet : Nat) :
    (s.arrival age quiet).tx.status = s.tx.status := rfl
@[simp] theorem State.arrival_tx_announce (s : State) (age quiet : Nat) :
    (s.arrival age quiet).tx.announce = s.tx.announce := rfl
@[simp] theorem State.arrival_tx_onLine (s : State) (age quiet : Nat) :
    (s.arrival age quiet).tx.onLine = s.tx.onLine := rfl
@[simp] theorem State.arrival_tx_backoff (s : State) (age quiet : Nat) :
    (s.arrival age quiet).tx.backoff = s.tx.backoff := rfl
@[simp] theorem State.arrival_tx_lfsr (s : State) (age quiet : Nat) : (s.arrival age quiet).tx.lfsr = s.tx.lfsr := rfl
@[simp] theorem State.arrival_tx_claimsDropped (s : State) (age quiet : Nat) :
    (s.arrival age quiet).tx.claimsDropped = s.tx.claimsDropped := rfl
@[simp] theorem State.arrival_tx_noticesDropped (s : State) (age quiet : Nat) :
    (s.arrival age quiet).tx.noticesDropped = s.tx.noticesDropped := rfl
@[simp] theorem State.arrival_tx_sent (s : State) (age quiet : Nat) : (s.arrival age quiet).tx.sent = s.tx.sent := rfl
@[simp] theorem State.arrival_peers (s : State) (age quiet : Nat) : (s.arrival age quiet).peers = s.peers := rfl
@[simp] theorem State.arrival_duplicateId (s : State) (age quiet : Nat) :
    (s.arrival age quiet).duplicateId = s.duplicateId := rfl
@[simp] theorem State.arrival_badKind (s : State) (age quiet : Nat) : (s.arrival age quiet).badKind = s.badKind := rfl
@[simp] theorem State.arrival_round (s : State) (age quiet : Nat) : (s.arrival age quiet).round = s.round := rfl
@[simp] theorem State.arrival_curtail (s : State) (age quiet : Nat) : (s.arrival age quiet).curtail = s.curtail := rfl
@[simp] theorem State.arrival_engine (s : State) (age quiet : Nat) : (s.arrival age quiet).engine = s.engine := rfl
@[simp] theorem State.arrival_sup (s : State) (age quiet : Nat) : (s.arrival age quiet).sup = s.sup := rfl
@[simp] theorem State.arrival_enabled (s : State) (age quiet : Nat) (q : PortId) :
    (s.arrival age quiet).enabled q = s.enabled q := rfl
@[simp] theorem State.arrival_line_stamp (s : State) (age quiet : Nat) :
    (s.arrival age quiet).line.stamp = s.round.stampAt age := rfl
@[simp] theorem State.arrival_tx_quiet (s : State) (age quiet : Nat) : (s.arrival age quiet).tx.quiet = quiet := rfl

/-! ### State.startCompute -/

@[simp] theorem State.startCompute_pending (s : State) (kind : ComputeKind) :
    (s.startCompute kind).pending = s.pending := rfl
@[simp] theorem State.startCompute_choice (s : State) (kind : ComputeKind) :
    (s.startCompute kind).choice = s.choice := rfl
@[simp] theorem State.startCompute_pins (s : State) (kind : ComputeKind) : (s.startCompute kind).pins = s.pins := rfl
@[simp] theorem State.startCompute_coming (s : State) (kind : ComputeKind) :
    (s.startCompute kind).coming = s.coming := rfl
@[simp] theorem State.startCompute_resetHold (s : State) (kind : ComputeKind) :
    (s.startCompute kind).resetHold = s.resetHold := rfl
@[simp] theorem State.startCompute_boot (s : State) (kind : ComputeKind) : (s.startCompute kind).boot = s.boot := rfl
@[simp] theorem State.startCompute_nodeId (s : State) (kind : ComputeKind) :
    (s.startCompute kind).nodeId = s.nodeId := rfl
@[simp] theorem State.startCompute_now (s : State) (kind : ComputeKind) : (s.startCompute kind).now = s.now := rfl
@[simp] theorem State.startCompute_cfg (s : State) (kind : ComputeKind) : (s.startCompute kind).cfg = s.cfg := rfl
@[simp] theorem State.startCompute_line (s : State) (kind : ComputeKind) : (s.startCompute kind).line = s.line := rfl
@[simp] theorem State.startCompute_tx (s : State) (kind : ComputeKind) : (s.startCompute kind).tx = s.tx := rfl
@[simp] theorem State.startCompute_peers (s : State) (kind : ComputeKind) :
    (s.startCompute kind).peers = s.peers := rfl
@[simp] theorem State.startCompute_duplicateId (s : State) (kind : ComputeKind) :
    (s.startCompute kind).duplicateId = s.duplicateId := rfl
@[simp] theorem State.startCompute_badKind (s : State) (kind : ComputeKind) :
    (s.startCompute kind).badKind = s.badKind := rfl
@[simp] theorem State.startCompute_round (s : State) (kind : ComputeKind) :
    (s.startCompute kind).round = s.round := rfl
@[simp] theorem State.startCompute_curtail (s : State) (kind : ComputeKind) :
    (s.startCompute kind).curtail = s.curtail := rfl
@[simp] theorem State.startCompute_engine_boundary (s : State) (kind : ComputeKind) :
    (s.startCompute kind).engine.boundary = s.engine.boundary := rfl
@[simp] theorem State.startCompute_engine_request (s : State) (kind : ComputeKind) :
    (s.startCompute kind).engine.request = s.engine.request := rfl
@[simp] theorem State.startCompute_engine_agePending (s : State) (kind : ComputeKind) :
    (s.startCompute kind).engine.agePending = s.engine.agePending := rfl
@[simp] theorem State.startCompute_engine_huntPending (s : State) (kind : ComputeKind) :
    (s.startCompute kind).engine.huntPending = s.engine.huntPending := rfl
@[simp] theorem State.startCompute_engine_wanted (s : State) (kind : ComputeKind) :
    (s.startCompute kind).engine.wanted = s.engine.wanted := rfl
@[simp] theorem State.startCompute_engine_short (s : State) (kind : ComputeKind) :
    (s.startCompute kind).engine.short = s.engine.short := rfl
@[simp] theorem State.startCompute_engine_headroom (s : State) (kind : ComputeKind) :
    (s.startCompute kind).engine.headroom = s.engine.headroom := rfl
@[simp] theorem State.startCompute_engine_completed (s : State) (kind : ComputeKind) :
    (s.startCompute kind).engine.completed = s.engine.completed := rfl
@[simp] theorem State.startCompute_sup (s : State) (kind : ComputeKind) : (s.startCompute kind).sup = s.sup := rfl
@[simp] theorem State.startCompute_enabled (s : State) (kind : ComputeKind) (q : PortId) :
    (s.startCompute kind).enabled q = s.enabled q := rfl

/-! ### State.formReply -/

@[simp] theorem State.formReply_pending (s : State) (p : PortId) (r : Reason) :
    (s.formReply p r).pending = s.pending := rfl
@[simp] theorem State.formReply_choice (s : State) (p : PortId) (r : Reason) :
    (s.formReply p r).choice = s.choice := rfl
@[simp] theorem State.formReply_pins (s : State) (p : PortId) (r : Reason) : (s.formReply p r).pins = s.pins := rfl
@[simp] theorem State.formReply_coming (s : State) (p : PortId) (r : Reason) :
    (s.formReply p r).coming = s.coming := rfl
@[simp] theorem State.formReply_resetHold (s : State) (p : PortId) (r : Reason) :
    (s.formReply p r).resetHold = s.resetHold := rfl
@[simp] theorem State.formReply_boot (s : State) (p : PortId) (r : Reason) : (s.formReply p r).boot = s.boot := rfl
@[simp] theorem State.formReply_nodeId (s : State) (p : PortId) (r : Reason) :
    (s.formReply p r).nodeId = s.nodeId := rfl
@[simp] theorem State.formReply_now (s : State) (p : PortId) (r : Reason) : (s.formReply p r).now = s.now := rfl
@[simp] theorem State.formReply_cfg (s : State) (p : PortId) (r : Reason) : (s.formReply p r).cfg = s.cfg := rfl
@[simp] theorem State.formReply_line (s : State) (p : PortId) (r : Reason) : (s.formReply p r).line = s.line := rfl
@[simp] theorem State.formReply_tx (s : State) (p : PortId) (r : Reason) : (s.formReply p r).tx = s.tx := rfl
@[simp] theorem State.formReply_peers (s : State) (p : PortId) (r : Reason) : (s.formReply p r).peers = s.peers := rfl
@[simp] theorem State.formReply_duplicateId (s : State) (p : PortId) (r : Reason) :
    (s.formReply p r).duplicateId = s.duplicateId := rfl
@[simp] theorem State.formReply_badKind (s : State) (p : PortId) (r : Reason) :
    (s.formReply p r).badKind = s.badKind := rfl
@[simp] theorem State.formReply_round (s : State) (p : PortId) (r : Reason) : (s.formReply p r).round = s.round := rfl
@[simp] theorem State.formReply_curtail (s : State) (p : PortId) (r : Reason) :
    (s.formReply p r).curtail = s.curtail := rfl
@[simp] theorem State.formReply_engine (s : State) (p : PortId) (r : Reason) :
    (s.formReply p r).engine = s.engine := rfl
@[simp] theorem State.formReply_sup (s : State) (p : PortId) (r : Reason) : (s.formReply p r).sup = s.sup := rfl
@[simp] theorem State.formReply_enabled (s : State) (p : PortId) (r : Reason) (q : PortId) :
    (s.formReply p r).enabled q = s.enabled q := rfl

/-! ### Figures and flags: each is the same in two states that agree on what it is computed from -/

theorem State.enabled_congr {s t : State} (hc : t.cfg = s.cfg) (p : PortId) : t.enabled p = s.enabled p := by
  simp only [State.enabled, hc]

theorem State.anyHeld_congr {s t : State} (hc : t.cfg = s.cfg) (hp : t.ports = s.ports) : t.anyHeld = s.anyHeld := by
  simp only [State.anyHeld, State.enabled, hc, hp]

theorem State.peerState_congr {s t : State} (hc : t.cfg = s.cfg) (hn : t.nodeId = s.nodeId) (hp : t.peers = s.peers)
    (id : NodeId) : t.peerState id = s.peerState id := by
  simp only [State.peerState, hc, hn, hp]

theorem State.contribution_congr {s t : State} (hc : t.cfg = s.cfg) (hn : t.nodeId = s.nodeId) (hp : t.peers = s.peers)
    (id : NodeId) : t.contribution id = s.contribution id := by
  simp only [State.contribution, State.peerState_congr hc hn hp, hc, hp]

theorem State.reserve_congr {s t : State} (hc : t.cfg = s.cfg) (hn : t.nodeId = s.nodeId) (hp : t.peers = s.peers) :
    t.reserve = s.reserve := by
  simp only [State.reserve, funext (State.contribution_congr hc hn hp)]

theorem State.lLow_congr {s t : State} (hc : t.cfg = s.cfg) (hp : t.peers = s.peers) : t.lLow = s.lLow := by
  simp only [State.lLow, hc, hp]

theorem State.anyIncompatible_congr {s t : State} (hc : t.cfg = s.cfg) (hn : t.nodeId = s.nodeId)
    (hp : t.peers = s.peers) : t.anyIncompatible = s.anyIncompatible := by
  simp only [State.anyIncompatible, State.peerState_congr hc hn hp]

theorem State.curtailTarget_congr {s t : State} (hc : t.cfg = s.cfg) (hs : t.curtail.set = s.curtail.set)
    (hl : t.curtail.localForce = s.curtail.localForce) : t.curtailTarget = s.curtailTarget := by
  simp only [State.curtailTarget, State.curtailPercent, hc, hs, hl]

theorem State.ceilingReduced_congr {s t : State} (hc : t.cfg = s.cfg) (hp : t.peers = s.peers)
    (hl : t.curtail.ceiling = s.curtail.ceiling) : t.ceilingReduced = s.ceilingReduced := by
  simp only [State.ceilingReduced, State.lLow_congr hc hp, hc, hl]

theorem State.modeNow_congr {s t : State} (hb : t.boot = s.boot) (ha : t.line.acq = s.line.acq)
    (hs : t.line.span = s.line.span) (hd : t.duplicateId = s.duplicateId) : t.modeNow = s.modeNow := by
  simp only [State.modeNow, hb, ha, hs, hd]

theorem State.reportedActive_congr {s t : State} (hc : t.cfg = s.cfg) (hp : t.ports = s.ports)
    (hx : t.sup.conflict = s.sup.conflict) : t.reportedActive = s.reportedActive := by
  simp only [State.reportedActive, State.enabled, hc, hp, hx]

theorem State.faultRule_congr {s t : State} (hb : t.boot = s.boot) (hc : t.cfg = s.cfg) (hp : t.ports = s.ports)
    (hd : t.duplicateId = s.duplicateId) (hx : t.sup.conflict = s.sup.conflict) : t.faultRule = s.faultRule := by
  simp only [State.faultRule, State.enabled, State.reportedActive_congr hc hp hx, hb, hc, hp, hd]

theorem State.alertRule_congr {s t : State} (hb : t.boot = s.boot) (hc : t.cfg = s.cfg) (hp : t.ports = s.ports)
    (hl : t.sup.latched = s.sup.latched) (hx : t.sup.conflict = s.sup.conflict) : t.alertRule = s.alertRule := by
  simp only [State.alertRule, State.reportedActive_congr hc hp hx, hb, hc, hl]

/-! ### State.under -/

@[simp] theorem State.under_pending (t s : State) : (t.under s).pending = s.pending := rfl
@[simp] theorem State.under_choice (t s : State) : (t.under s).choice = s.choice := rfl
@[simp] theorem State.under_pins (t s : State) : (t.under s).pins = s.pins := rfl
@[simp] theorem State.under_coming (t s : State) : (t.under s).coming = s.coming := rfl
@[simp] theorem State.under_resetHold (t s : State) : (t.under s).resetHold = s.resetHold := rfl
@[simp] theorem State.under_boot (t s : State) : (t.under s).boot = t.boot := rfl
@[simp] theorem State.under_nodeId (t s : State) : (t.under s).nodeId = t.nodeId := rfl
@[simp] theorem State.under_now (t s : State) : (t.under s).now = t.now := rfl
@[simp] theorem State.under_cfg (t s : State) : (t.under s).cfg = t.cfg := rfl
@[simp] theorem State.under_ports (t s : State) : (t.under s).ports = t.ports := rfl
@[simp] theorem State.under_line (t s : State) : (t.under s).line = t.line := rfl
@[simp] theorem State.under_tx (t s : State) : (t.under s).tx = t.tx := rfl
@[simp] theorem State.under_peers (t s : State) : (t.under s).peers = t.peers := rfl
@[simp] theorem State.under_duplicateId (t s : State) : (t.under s).duplicateId = t.duplicateId := rfl
@[simp] theorem State.under_badKind (t s : State) : (t.under s).badKind = t.badKind := rfl
@[simp] theorem State.under_round (t s : State) : (t.under s).round = t.round := rfl
@[simp] theorem State.under_curtail (t s : State) : (t.under s).curtail = t.curtail := rfl
@[simp] theorem State.under_engine (t s : State) : (t.under s).engine = t.engine := rfl
@[simp] theorem State.under_sup (t s : State) : (t.under s).sup = t.sup := rfl

end Sys2Proof.Machine
end

