-- ==== Sys2Proof/Laws/Ops.lean ====
section
/-! SUPPORT. Laws/Ops.lean: for each shared operation, what it can do, said once. A frame lemma `…_frame` gives the next
state as the old one with exactly the fields that the operation may touch; the other lemmas say what those become. -/

namespace Sys2Proof.Machine

/-! ### Ports -/

/-- The port that is rewritten. -/
theorem State.updPort_get (s : State) (p : PortId) (f : Port → Port) :
    (s.updPort p f).ports[p] = f s.ports[p] := by simp [State.updPort]

/-- The same with the index in the form that `simp` brings it into. -/
@[simp] theorem State.updPort_get_val (s : State) (p : PortId) (f : Port → Port) :
    (s.updPort p f).ports[p.val] = f s.ports[p.val] := by simp [State.updPort]

/-- The other ports stay. -/
theorem State.updPort_get_ne (s : State) {p q : PortId} (f : Port → Port) (h : q ≠ p) :
    (s.updPort p f).ports[q] = s.ports[q] := by
  have : p.val ≠ q.val := fun e => h (Fin.ext e.symm)
  simp [State.updPort, Vector.getElem_set_ne, this]

/-- Every enabled port is rewritten and every other stays. -/
theorem State.updEnabled_get (s : State) (f : PortId → Port → Port) (p : PortId) :
    (s.updEnabled f).ports[p] = if s.enabled p then f p s.ports[p] else s.ports[p] := by simp [State.updEnabled]

/-- An update that leaves the port as it is leaves the state as it is. -/
theorem State.updPort_id (s : State) (p : PortId) (f : Port → Port) (h : f s.ports[p] = s.ports[p]) :
    s.updPort p f = s := by
  unfold State.updPort
  rw [h]
  simp

/-! ### Health values and in-force sets -/

@[simp] theorem Health.get_put (h : Health) (c d : HealthCond) (v : Bool) :
    (h.put c v).get d = if d = c then v else h.get d := by
  cases c <;> cases d <;> rfl

theorem Health.put_get (h : Health) (c : HealthCond) : h.put c (h.get c) = h := by cases c <;> rfl

@[simp] theorem InForce.get_put (f : InForce) (c d : Cond) (e : Option Entry) :
    (f.put c e).get d = if d = c then e else f.get d := by
  cases c <;> cases d <;> rfl

theorem InForce.put_get (f : InForce) (c : Cond) : f.put c (f.get c) = f := by cases c <;> rfl

@[simp] theorem InForce.get_drop (f : InForce) (p : Cond → Entry → Bool) (c : Cond) :
    (f.drop p).get c = (f.get c).filter fun e => !p c e := by
  cases c <;> rfl

@[simp] theorem InForce.get_empty (c : Cond) : InForce.empty.get c = none := by cases c <;> rfl

theorem mem_allConds (c : Cond) : c ∈ allConds := by cases c <;> simp [allConds]

/-- Some entry has the property exactly when some condition's entry has. -/
theorem InForce.any_eq_true (f : InForce) (p : Entry → Bool) :
    f.any p = true ↔ ∃ c : Cond, ∃ e : Entry, f.get c = some e ∧ p e = true := by
  simp [InForce.any, mem_allConds, Option.any_eq_true]

/-- An entry made or kept by a raise is marked present; the other entries stay (R170). -/
theorem PadFault.enter_get (f : PadFault) (c d : Cond) (r : Response) : (f.enter c r).inForce.get d =
    if d = c then some ⟨((f.inForce.get c).map Entry.response).getD r, true⟩ else f.inForce.get d := by
  unfold PadFault.enter
  cases h : f.inForce.get c <;> simp

@[simp] theorem PadFault.enter_timer (f : PadFault) (c : Cond) (r : Response) : (f.enter c r).timer = f.timer := by
  unfold PadFault.enter; split <;> rfl

@[simp] theorem PadFault.enter_retries (f : PadFault) (c : Cond) (r : Response) :
    (f.enter c r).retries = f.retries := by
  unfold PadFault.enter; split <;> rfl

/-- The retry timer is set to the longer of the time given and the time left (R171). -/
theorem PadFault.setTimer_eq (f : PadFault) (n : Nat) :
    f.setTimer n = { f with timer := some (max n (f.timer.getD 0)) } := by
  unfold PadFault.setTimer
  cases f with
  | mk i tm k =>
    cases tm with
    | none => simp
    | some left =>
      dsimp only
      split
      · simp; omega
      · simp; omega

/-- A raise under IGNORE only marks an entry that exists; under another response it leaves an entry that is marked
present, of the response that R170 gives. -/
theorem PadFault.raise_get (f : PadFault) (c d : Cond) (r : Response) : (f.raise c r).inForce.get d =
    if d = c then
      if r = .ignore then (f.inForce.get c).map fun e => ⟨e.response, true⟩
      else if retrying r = true ∧ 3 ≤ f.retries then some ⟨.latch, true⟩
      else some ⟨((f.inForce.get c).map Entry.response).getD r, true⟩
    else f.inForce.get d := by
  cases r <;> simp only [PadFault.raise, PadFault.markPresent, PadFault.enter_get, InForce.get_put, retrying]
  · split <;> simp_all
  · split
    · simp_all
    · next h => split <;> simp [PadFault.setTimer_eq, PadFault.enter_get, h]
  · split
    · simp_all
    · next h => split <;> simp [PadFault.setTimer_eq, PadFault.enter_get, h]
  all_goals simp

/-- A raise never moves the retry count (R171). -/
theorem PadFault.raise_retries (f : PadFault) (c : Cond) (r : Response) : (f.raise c r).retries = f.retries := by
  cases r <;> simp only [PadFault.raise, PadFault.markPresent, PadFault.enter_retries]
  all_goals (repeat' split) <;> simp [PadFault.setTimer_eq]

/-- A clear leaves the timer and the retry count (R172). -/
theorem PadFault.clear_frame (f : PadFault) (c : Cond) :
    f.clear c = { f with inForce := (f.clear c).inForce } := by
  unfold PadFault.clear; repeat' split
  all_goals rfl

/-- What a clear leaves of each entry (R172). -/
theorem PadFault.clear_get (f : PadFault) (c d : Cond) : (f.clear c).inForce.get d =
    if d = c then
      (f.inForce.get c).bind fun e =>
        if e.response = .report ∨ e.response = .holdWhile then none else some ⟨e.response, false⟩
    else f.inForce.get d := by
  unfold PadFault.clear
  cases h : f.inForce.get c <;> simp only [Option.bind_none, Option.bind_some]
  · split <;> simp_all
  · split <;> simp

/-! ### Health reports (R180) -/

/-- A report touches the current values and the list of changes. -/
theorem State.reportHealth_frame (s : State) (c : HealthCond) (v : Bool) : s.reportHealth c v =
    { s with sup := { s.sup with current := s.sup.current.put c v, reports := (s.reportHealth c v).sup.reports } } := by
  unfold State.reportHealth
  split
  · next h => rw [← h, Health.put_get]
  · rfl

@[simp] theorem State.reportHealth_get (s : State) (c d : HealthCond) (v : Bool) :
    (s.reportHealth c v).sup.current.get d = if d = c then v else s.sup.current.get d := by
  rw [State.reportHealth_frame]; simp

@[simp] theorem State.reportHealth_boot (s : State) (c : HealthCond) (v : Bool) :
    (s.reportHealth c v).boot = s.boot := by rw [State.reportHealth_frame]
@[simp] theorem State.reportHealth_cfg (s : State) (c : HealthCond) (v : Bool) :
    (s.reportHealth c v).cfg = s.cfg := by rw [State.reportHealth_frame]
@[simp] theorem State.reportHealth_ports (s : State) (c : HealthCond) (v : Bool) :
    (s.reportHealth c v).ports = s.ports := by rw [State.reportHealth_frame]
@[simp] theorem State.reportHealth_line (s : State) (c : HealthCond) (v : Bool) :
    (s.reportHealth c v).line = s.line := by rw [State.reportHealth_frame]
@[simp] theorem State.reportHealth_tx (s : State) (c : HealthCond) (v : Bool) :
    (s.reportHealth c v).tx = s.tx := by rw [State.reportHealth_frame]
@[simp] theorem State.reportHealth_peers (s : State) (c : HealthCond) (v : Bool) :
    (s.reportHealth c v).peers = s.peers := by rw [State.reportHealth_frame]
@[simp] theorem State.reportHealth_curtail (s : State) (c : HealthCond) (v : Bool) :
    (s.reportHealth c v).curtail = s.curtail := by rw [State.reportHealth_frame]
@[simp] theorem State.reportHealth_engine (s : State) (c : HealthCond) (v : Bool) :
    (s.reportHealth c v).engine = s.engine := by rw [State.reportHealth_frame]
@[simp] theorem State.reportHealth_round (s : State) (c : HealthCond) (v : Bool) :
    (s.reportHealth c v).round = s.round := by rw [State.reportHealth_frame]
@[simp] theorem State.reportHealth_conflict (s : State) (c : HealthCond) (v : Bool) :
    (s.reportHealth c v).sup.conflict = s.sup.conflict := by rw [State.reportHealth_frame]

/-! ### Holds, releases and session ends (R16, R173) -/

/-- A signal touches one port, the marks of the compute in flight, and the report of PAD_HELD_ANY. -/
theorem State.signal_frame (s : State) (p : PortId) (before : Bool) : s.signal p before =
    { s with ports := (s.signal p before).ports
             engine := { s.engine with inFlight := (s.signal p before).engine.inFlight }
             sup := { s.sup with current := (s.signal p before).sup.current
                                 reports := (s.signal p before).sup.reports } } := by
  unfold State.signal
  rw [State.reportHealth_frame]
  dsimp only
  split
  · rfl
  · split <;> rfl

/-- A signal leaves the other ports. -/
theorem State.signal_get_ne (s : State) {p q : PortId} (before : Bool) (h : q ≠ p) :
    (s.signal p before).ports[q] = s.ports[q] := by
  simp only [State.signal, State.reportHealth_ports]
  split
  · simpa using State.updPort_get_ne s Port.hold h
  · split
    · exact State.updPort_get_ne s Port.release h
    · rfl

/-- What a signal makes of its own port: a hold, a release, or nothing (R173). -/
theorem State.signal_get (s : State) (p : PortId) (before : Bool) : (s.signal p before).ports[p] =
    if before = false ∧ s.ports[p].fault.held = true then s.ports[p].hold
    else if before = true ∧ s.ports[p].fault.held = false then s.ports[p].release
    else s.ports[p] := by
  simp only [State.signal, State.reportHealth_ports]
  split
  · exact State.updPort_get s p Port.hold
  · split
    · exact State.updPort_get s p Port.release
    · rfl

/-- A rewritten fault record touches one port, the marks of the compute in flight, and the report of PAD_HELD_ANY. -/
theorem State.updFault_frame (s : State) (p : PortId) (g : PadFault → PadFault) : s.updFault p g =
    { s with ports := (s.updFault p g).ports
             engine := { s.engine with inFlight := (s.updFault p g).engine.inFlight }
             sup := { s.sup with current := (s.updFault p g).sup.current
                                 reports := (s.updFault p g).sup.reports } } := by
  unfold State.updFault
  rw [State.signal_frame]
  rfl

theorem State.updFault_get_ne (s : State) {p q : PortId} (g : PadFault → PadFault) (h : q ≠ p) :
    (s.updFault p g).ports[q] = s.ports[q] := by
  rw [State.updFault, State.signal_get_ne _ _ h, State.updPort_get_ne s _ h]

/-- What a rewritten fault record makes of its own port. -/
theorem State.updFault_get (s : State) (p : PortId) (g : PadFault → PadFault) :
    let x := { s.ports[p] with fault := g s.ports[p].fault }
    (s.updFault p g).ports[p] =
      if s.ports[p].fault.held = false ∧ x.fault.held = true then x.hold
      else if s.ports[p].fault.held = true ∧ x.fault.held = false then x.release
      else x := by
  simp only [State.updFault, State.signal_get, State.updPort_get]

/-- Two rewritings of a fault record after one free value was taken. -/
theorem State.updFault_twice (s t : State) (p : PortId) (g h : PadFault → PadFault)
    (e : t = { s with choice := s.choice + 1 }) : (t.updFault p g).updFault p h =
      { s with choice := ((t.updFault p g).updFault p h).choice
               ports := ((t.updFault p g).updFault p h).ports
               engine := { s.engine with inFlight := ((t.updFault p g).updFault p h).engine.inFlight }
               sup := { s.sup with current := ((t.updFault p g).updFault p h).sup.current
                                   reports := ((t.updFault p g).updFault p h).sup.reports } } := by
  subst e
  generalize hu : State.updFault { s with choice := s.choice + 1 } p g = u
  have hf := State.updFault_frame { s with choice := s.choice + 1 } p g
  rw [hu] at hf
  rw [State.updFault_frame u]
  conv => lhs; rw [hf]
  conv => rhs; rw [hf]

/-- The reports of a tick touch the free-value count, one port, the marks and the report of PAD_HELD_ANY. -/
theorem State.deliver_frame (s : State) (p : PortId) (rs cs : List Cond) : s.deliver p rs cs =
    { s with choice := (s.deliver p rs cs).choice
             ports := (s.deliver p rs cs).ports
             engine := { s.engine with inFlight := (s.deliver p rs cs).engine.inFlight }
             sup := { s.sup with current := (s.deliver p rs cs).sup.current
                                 reports := (s.deliver p rs cs).sup.reports } } := by
  unfold State.deliver
  dsimp only
  repeat' split
  · rfl
  · rw [State.updFault_frame]
  · rw [State.updFault_frame]
  · exact State.updFault_twice _ _ _ _ _ rfl
  · exact State.updFault_twice _ _ _ _ _ rfl

/-- A session end touches one port, the marks of the compute in flight, and the report of PAD_HELD_ANY. -/
theorem State.endSession_frame (s : State) (p : PortId) (dest : PadState) (normal : Bool) : s.endSession p dest normal =
    { s with ports := (s.endSession p dest normal).ports
             engine := { s.engine with inFlight := (s.endSession p dest normal).engine.inFlight }
             sup := { s.sup with current := (s.endSession p dest normal).sup.current
                                 reports := (s.endSession p dest normal).sup.reports } } := by
  unfold State.endSession
  rw [State.signal_frame]
  rfl

theorem State.endSession_get_ne (s : State) {p q : PortId} (dest : PadState) (normal : Bool) (h : q ≠ p) :
    (s.endSession p dest normal).ports[q] = s.ports[q] := by
  rw [State.endSession, State.signal_get_ne _ _ h, State.markStopped_ports, State.updPort_get_ne s _ h]

/-! ### Mode, ceiling and line (R53, R147, R150 to R152) -/

/-- The mode's judgement touches the mode, the report of SOLO and the request. -/
theorem State.judgeMode_frame (s : State) : s.judgeMode =
    { s with curtail := { s.curtail with mode := s.modeNow }
             engine := { s.engine with wanted := s.judgeMode.engine.wanted }
             sup := { s.sup with current := s.judgeMode.sup.current, reports := s.judgeMode.sup.reports } } := by
  unfold State.judgeMode
  split
  · next h => rw [h]
  · dsimp only
    split
    · next h => rw [State.reportHealth_frame, h]
    · next h =>
      rw [State.reportHealth_frame, h]
      rfl

@[simp] theorem State.judgeMode_mode (s : State) : s.judgeMode.curtail.mode = s.modeNow := by
  rw [State.judgeMode_frame]

/-- The request that the mode's judgement makes: a change to SOLO (R152). -/
theorem State.judgeMode_wanted (s : State) : s.judgeMode.engine.wanted =
    (s.engine.wanted || (decide (s.curtail.mode = .coordinated) && decide (s.modeNow = .solo))) := by
  unfold State.judgeMode
  split
  · next h => cases hm : s.curtail.mode <;> simp [h, hm]
  · next h =>
    dsimp only
    cases hm : s.curtail.mode <;> cases hn : s.modeNow <;> simp_all

/-- CEILING_REDUCED's judgement touches the report alone. -/
theorem State.judgeCeiling_frame (s : State) : s.judgeCeiling =
    { s with sup := { s.sup with current := s.sup.current.put .ceilingReduced s.ceilingReduced
                                 reports := s.judgeCeiling.sup.reports } } := by
  unfold State.judgeCeiling
  rw [State.reportHealth_frame]

/-- A HUNT entry touches the line, the peers, the request and the hunt mark, the Curtail Monitor, the reports and
CONFIG_CONFLICT. -/
theorem State.huntEntry_frame (s : State) : s.huntEntry =
    { s with line := s.huntEntry.line
             peers := s.huntEntry.peers
             curtail := s.huntEntry.curtail
             engine := { s.engine with huntPending := s.huntEntry.engine.huntPending
                                       wanted := s.huntEntry.engine.wanted }
             sup := { s.sup with conflict := s.huntEntry.sup.conflict
                                 current := s.huntEntry.sup.current
                                 reports := s.huntEntry.sup.reports } } := by
  unfold State.huntEntry
  rw [State.judgeMode_frame, State.reportHealth_frame, State.judgeCeiling_frame]
  dsimp only [State.dropPhaseErrors, State.retarget]
  by_cases h : s.engine.inFlight.isSome = true
  · simp only [h, if_true]
  · simp only [h, if_false, Bool.false_eq_true, State.losePeers, State.judgeConflict]

/-- The line after a HUNT entry (R53). -/
theorem State.huntEntry_line (s : State) : s.huntEntry.line = { s.line with
    acq := .hunt, trial := 0, errors := 0, silence := 0, heard := false, span := none, queue := []
    announce := if s.line.acq = .inStep then 0 else s.line.announce } := by
  unfold State.huntEntry
  rw [State.judgeMode_frame, State.reportHealth_frame, State.judgeCeiling_frame]
  dsimp only [State.dropPhaseErrors, State.retarget]
  by_cases h : s.engine.inFlight.isSome = true
  · simp only [h, if_true]
  · simp only [h, if_false, Bool.false_eq_true, State.losePeers, State.judgeConflict]

/-! ### Computes (R117, R118, R120) -/

/-- A compute start evaluates U, ask and floor of every enabled port. -/
theorem State.startCompute_get (s : State) (kind : ComputeKind) (p : PortId) : (s.startCompute kind).ports[p] =
    if s.enabled p then { s.ports[p] with session := s.ports[p].session.atComputeStart } else s.ports[p] := by
  have h : (s.startCompute kind).ports =
      (s.updEnabled fun _ x => { x with session := x.session.atComputeStart }).ports := rfl
  simp only [h, State.updEnabled_get]

/-- A compute start touches the ports and the compute in flight. -/
theorem State.startCompute_frame (s : State) (kind : ComputeKind) : s.startCompute kind =
    { s with ports := (s.startCompute kind).ports
             engine := { s.engine with inFlight := (s.startCompute kind).engine.inFlight } } := rfl

/-- A compute that has started is in flight, of the kind asked for, in the present mode, with no pad marked. -/
theorem State.startCompute_inFlight (s : State) (kind : ComputeKind) : ∃ c : Compute,
    (s.startCompute kind).engine.inFlight = some c ∧ c.kind = kind ∧ c.mode = s.curtail.mode ∧ c.elapsed = 0
    ∧ c.stopped = Vector.replicate 4 false :=
  ⟨_, rfl, rfl, rfl, rfl, rfl⟩

/-- Evaluating U, ask and floor a second time changes nothing (R33 to R35). -/
@[simp] theorem Session.atComputeStart_again (x : Session) : x.atComputeStart.atComputeStart = x.atComputeStart := by
  simp only [Session.atComputeStart]
  split <;> rfl

/-- A snapshot depends on the configuration, the node id, the ports, the line, the peers and the curtailment only. -/
theorem State.snapshot_congr {s t : State} (kind : ComputeKind) (hc : t.cfg = s.cfg) (hn : t.nodeId = s.nodeId)
    (hx : t.ports = s.ports) (hl : t.line = s.line) (hp : t.peers = s.peers) (hk : t.curtail = s.curtail) :
    t.snapshot kind = s.snapshot kind := by
  cases s
  cases t
  simp only at hc hn hl hp hk hx
  subst hc hn hl hp hk hx
  rfl

/-- The ports after a compute start depend on the configuration and the ports only. -/
theorem State.startCompute_ports_congr {s t : State} (kind k : ComputeKind) (hc : t.cfg = s.cfg) (hx : t.ports = s.ports) :
    (t.startCompute kind).ports = (s.startCompute k).ports := by
  simp only [State.startCompute, State.updEnabled, State.enabled, hc, hx]
  rfl

/-- Starting again leaves the ports as the start has left them. -/
theorem State.startCompute_ports_again (s : State) (kind k : ComputeKind) :
    ((s.startCompute kind).startCompute k).ports = (s.startCompute kind).ports := by
  apply Vector.ext
  intro i hi
  have h1 := State.startCompute_get (s.startCompute kind) k ⟨i, hi⟩
  have h2 := State.startCompute_get s kind ⟨i, hi⟩
  simp only [Fin.getElem_fin, State.startCompute_enabled] at h1 h2
  rw [h1, h2]
  split <;> simp

/-- A state that agrees with the one a compute start has left on what a snapshot is taken from holds, as the compute in flight,
the one that a start would take from it. -/
theorem State.startCompute_again {s t : State} (kind : ComputeKind) (hc : t.cfg = s.cfg) (hn : t.nodeId = s.nodeId)
    (hx : t.ports = (s.startCompute kind).ports) (hl : t.line = s.line) (hp : t.peers = s.peers)
    (hk : t.curtail = s.curtail) :
    (t.startCompute kind).engine.inFlight = (s.startCompute kind).engine.inFlight := by
  have h : (t.startCompute kind).ports = (s.startCompute kind).ports :=
    (State.startCompute_ports_congr kind kind (s := s.startCompute kind) hc hx).trans (s.startCompute_ports_again kind kind)
  have e := State.snapshot_congr kind
    (s := State.updEnabled s fun _ x => { x with session := x.session.atComputeStart })
    (t := State.updEnabled t fun _ x => { x with session := x.session.atComputeStart }) hc hn h hl hp hk
  exact congrArg some e

/-- Serving a request starts an out-of-round compute, remembers the request, or does nothing. -/
theorem State.serve_cases (s : State) :
    (s.engine.wanted = false ∧ s.serve = s)
    ∨ (s.engine.wanted = true ∧ s.engine.inFlight = none
        ∧ s.serve = State.startCompute { s with engine := { s.engine with wanted := false } } .outOfRound)
    ∨ (s.engine.wanted = true ∧ s.engine.inFlight.isSome = true
        ∧ s.serve = { s with engine := { s.engine with wanted := false, request := true } }) := by
  unfold State.serve
  split
  · next h =>
    dsimp only
    cases hc : s.engine.inFlight with
    | none => exact .inr (.inl ⟨h, rfl, rfl⟩)
    | some c => exact .inr (.inr ⟨h, rfl, by simp⟩)
  · next h => exact .inl ⟨by simpa using h, rfl⟩

/-- Serving touches the ports (at a start) and, of the engine, the compute in flight, the request and its own mark. -/
theorem State.serve_frame (s : State) : s.serve =
    { s with ports := s.serve.ports
             engine := { s.engine with inFlight := s.serve.engine.inFlight, request := s.serve.engine.request
                                       wanted := false } } := by
  obtain ⟨h, e⟩ | ⟨h, -, e⟩ | ⟨h, -, e⟩ := s.serve_cases
  · rw [e, ← h]
  · rw [e]; rfl
  · rw [e]

/-! ### How a command ends (R178 to R181) -/

/-- The changes of a command reach the snapshot: they touch the free-value count, the STATUS slot and the latch. -/
theorem State.settleHealth_frame (s : State) : s.settleHealth =
    { s with choice := s.settleHealth.choice
             tx := { s.tx with status := s.settleHealth.tx.status }
             sup := { s.sup with reports := [], latched := s.settleHealth.sup.latched
                                 recorded := s.settleHealth.sup.recorded, cause := s.settleHealth.sup.cause
                                 outstanding := s.settleHealth.sup.outstanding } } := by
  unfold State.settleHealth
  dsimp only
  split
  · rfl
  · split <;> rfl
  · split <;> rfl

/-- Without a change nothing is latched. -/
theorem State.settleHealth_nil (s : State) (h : s.sup.reports = []) : s.settleHealth = s := by
  unfold State.settleHealth
  rw [h]
  dsimp only [firstReports]
  rw [← h]

/-- A latched snapshot records no change (R180). -/
theorem State.settleHealth_latched (s : State) (h : s.sup.latched = true) :
    s.settleHealth = { s with sup := { s.sup with reports := [] } } := by
  unfold State.settleHealth
  dsimp only
  split
  · rfl
  · rw [if_pos h]
  · rw [if_pos h]

/-- A change at a free snapshot latches it, and a STATUS is placed with the recorded values (R180, R182). -/
theorem State.settleHealth_free (s : State) (hl : s.sup.latched = false) (hr : s.sup.reports ≠ []) :
    s.settleHealth.sup.latched = true ∧ s.settleHealth.sup.outstanding = true := by
  unfold State.settleHealth
  dsimp only
  split
  · next h =>
    cases hx : s.sup.reports with
    | nil => exact absurd hx hr
    | cons a l => simp [hx, firstReports] at h
  · simp [hl]
  · simp [hl]

/-- How a command ends touches the free-value count, the ports (at a compute start), the STATUS slot, the engine and the
supervisor. -/
theorem State.finish_frame (s : State) : s.finish =
    { s with choice := s.finish.choice
             ports := s.serve.ports
             tx := { s.tx with status := s.finish.tx.status }
             engine := s.serve.engine
             sup := { s.finish.sup with conflict := s.sup.conflict, current := s.sup.current, reports := []
                                        periodic := s.sup.periodic } } := by
  unfold State.finish
  rw [State.settleHealth_frame, State.serve_frame]
  rfl

/-! ### Records (R7, R11, R19) -/

/-- A reply changes the link of one port. -/
theorem State.formReply_get (s : State) (p : PortId) (r : Reason) : (s.formReply p r).ports[p] =
    { s.ports[p] with link := { s.ports[p].link with
        reply := some (s.ports[p].reply ((s.cfg.portMap[p].map Fin.val).getD 0) r, 0) } } := by
  simp [State.formReply]

theorem State.formReply_get_ne (s : State) {p q : PortId} (r : Reason) (h : q ≠ p) :
    (s.formReply p r).ports[q] = s.ports[q] := State.updPort_get_ne s _ h

/-- A record at the silence watch touches one port, the marks and the report of PAD_HELD_ANY. -/
theorem State.hear_frame (s : State) (p : PortId) : s.hear p =
    { s with ports := (s.hear p).ports
             engine := { s.engine with inFlight := (s.hear p).engine.inFlight }
             sup := { s.sup with current := (s.hear p).sup.current, reports := (s.hear p).sup.reports } } := by
  unfold State.hear
  split
  · dsimp only
    split
    · rw [State.updFault_frame]; rfl
    · rfl
  · rfl

/-- A rewritten session touches one port and the marks of the compute in flight. -/
theorem State.restate_frame (s : State) (p : PortId) (f : Session → Session) : s.restate p f =
    { s with ports := (s.restate p f).ports
             engine := { s.engine with inFlight := (s.restate p f).engine.inFlight } } := by
  unfold State.restate
  dsimp only
  split <;> rfl

/-- The session that a record leaves (R11, R13). -/
theorem State.restate_session (s : State) (p : PortId) (f : Session → Session) :
    (s.restate p f).ports[p].session =
      { (f s.ports[p].session).judge with
        state := (f s.ports[p].session).state.again (f s.ports[p].session).energy } := by
  unfold State.restate
  dsimp only
  split
  · simp [Port.stopEligible, Session.judge]
  · simp [Session.judge]

/-! ### Ticks (R25, R36, R160) -/

/-- The accounting of an answer touches one port and the marks of the compute in flight. -/
theorem State.account_frame (s : State) (p : PortId) (m : Nat) : s.account p m =
    { s with ports := (s.account p m).ports
             engine := { s.engine with inFlight := (s.account p m).engine.inFlight } } := by
  unfold State.account
  dsimp only
  split <;> rfl

/-- The monitors' judgement touches the free-value count, one port, the marks and the report of PAD_HELD_ANY. -/
theorem State.monitor_frame (s : State) (p : PortId) (m u : Nat) (flag : Bool) : s.monitor p m u flag =
    { s with choice := (s.monitor p m u flag).choice
             ports := (s.monitor p m u flag).ports
             engine := { s.engine with inFlight := (s.monitor p m u flag).engine.inFlight }
             sup := { s.sup with current := (s.monitor p m u flag).sup.current
                                 reports := (s.monitor p m u flag).sup.reports } } := by
  unfold State.monitor
  dsimp only
  rw [State.deliver_frame]
  rfl

/-! ### The idle step (log 1) -/

/-- A millisecond moves the pins, what they still have to show, and the RESET filter. -/
theorem State.nextPins_frame (s : State) :
    s.nextPins = { s with pins := s.nextPins.pins, coming := s.nextPins.coming, resetHold := s.nextPins.resetHold } := rfl

@[simp] theorem State.nextPins_ports (s : State) : s.nextPins.ports = s.ports := rfl

@[simp] theorem State.nextPins_cfg (s : State) : s.nextPins.cfg = s.cfg := rfl

/-- A filter's count stays within its time, and is above 0 only while the input shows the other level (R4, R142). -/
theorem heldFor_spec (filtered shown : Bool) (count limit : Nat) :
    heldFor filtered shown count limit ≤ limit
    ∧ (0 < heldFor filtered shown count limit → shown = !filtered) := by
  unfold heldFor
  split
  · exact ⟨Nat.zero_le _, fun h => absurd h (Nat.lt_irrefl 0)⟩
  · exact ⟨Nat.min_le_left _ _, fun _ => by cases filtered <;> cases shown <;> simp_all⟩

/-- When port `p` has a presence edge (R4). -/
theorem State.presenceEdge_eq_true (s : State) (p : PortId) (up : Bool) : s.presenceEdge p up = true ↔
    s.boot = .running ∧ s.enabled p = true ∧ s.ports[p].level ≠ up ∧ s.pins.presence.getLsbD p.val = up
      ∧ Config.presenceTime ≤ s.ports[p].change := by
  simp [State.presenceEdge, State.serves, and_assoc]

/-- When the CURTAIL pin has an edge (R142). -/
theorem State.curtailEdge_eq_true (s : State) (low : Bool) : s.curtailEdge low = true ↔
    s.boot = .running ∧ s.curtail.pin ≠ low ∧ s.pins.curtail = low ∧ Config.curtailTime ≤ s.curtail.hold := by
  simp [State.curtailEdge, and_assoc]

/-- Which attempt of the image read a failure can end (R185). -/
theorem Boot.failing_eq_some (b : Boot) (cause : ReadFailure) (n : Nat) : b.failing cause = some n ↔
    (∃ ms, b = .due n ms ∧ cause = .busHeldLow) ∨ ∃ ms, b = .reading n ms ∧ cause ≠ .busHeldLow := by
  cases b <;> cases cause <;> simp [Boot.failing]

/-- A millisecond in which an attempt is due touches the queue and the start-up operation. -/
theorem State.dueMillisecond_frame (s : State) (n t : Nat) : s.dueMillisecond n t =
    { s with pending := (s.dueMillisecond n t).pending, boot := (s.dueMillisecond n t).boot } := by
  unfold State.dueMillisecond
  repeat' split
  all_goals rfl

@[simp] theorem State.dueMillisecond_ports (s : State) (n t : Nat) : (s.dueMillisecond n t).ports = s.ports := by
  rw [s.dueMillisecond_frame]

/-- What the filters do to a port (R4). -/
theorem State.filterPins_get (s : State) (p : PortId) :
    ∃ n, s.filterPins.ports[p] = { s.ports[p] with change := n } := by
  simp only [State.filterPins, Fin.getElem_fin, Vector.getElem_ofFn]
  split
  · exact ⟨_, rfl⟩
  · exact ⟨_, rfl⟩

/-- A running millisecond moves a port's timers and the count of its presence filter on. -/
theorem State.millisecond_get (s : State) (p : PortId) :
    ∃ n, s.millisecond.ports[p] = { s.ports[p].millisecond with change := n } := by
  obtain ⟨n, h⟩ := State.filterPins_get
    { s.nextPins with
      now := s.now + 1
      ports := Vector.ofFn fun p : Fin 4 => s.ports[p].millisecond
      engine := { s.engine with
        inFlight := s.engine.inFlight.map fun c => { c with elapsed := c.elapsed + 1 } } } p
  refine ⟨n, h.trans ?_⟩
  simp

/-- A millisecond in which no reset comes touches the queue, the pins with the RESET filter, the start-up operation, the
timebase, the ports' timers, the round phase, the age of the compute in flight and the count of the CURTAIL filter. -/
theorem State.elapse_frame (s : State) : s.elapse =
    { s with pending := s.elapse.pending
             pins := s.nextPins.pins
             coming := s.nextPins.coming
             resetHold := s.nextPins.resetHold
             boot := s.elapse.boot
             now := s.elapse.now
             ports := s.elapse.ports
             round := { s.round with phase := s.elapse.round.phase }
             curtail := { s.curtail with hold := s.elapse.curtail.hold }
             engine := { s.engine with inFlight := s.elapse.engine.inFlight } } := by
  unfold State.elapse
  split
  · rfl
  · rw [State.dueMillisecond_frame]
    rfl
  all_goals repeat' split
  all_goals rfl

/-- What a millisecond mark can do: hand over a reset, with the pins moved, or let the millisecond pass. -/
theorem State.mark_cases (s : State) :
    (s.boot ≠ .held ∧ s.upcoming.resets s.resetHold = true ∧ s.mark = { s.nextPins with pending := [.reset] })
    ∨ ((s.boot = .held ∨ s.upcoming.resets s.resetHold = false) ∧ s.mark = s.elapse) := by
  unfold State.mark
  split
  · next h => exact .inl ⟨h.1, h.2, rfl⟩
  · next h => exact .inr ⟨by cases hr : s.upcoming.resets s.resetHold <;> simp_all, rfl⟩

/-- What an idle step can do: in the running part hand over a drain, or else the ticks that are due; and else take a
millisecond mark. -/
theorem State.idle_cases (s : State) :
    (s.boot = .running ∧ ∃ c, s.drainDue = some c ∧ s.idle = { s with pending := [c] })
    ∨ (s.boot = .running ∧ s.drainDue = none ∧ s.ticksDue ≠ [] ∧ s.idle = s.handTicks)
    ∨ ((s.boot = .running → s.drainDue = none ∧ s.ticksDue = []) ∧ s.idle = s.mark) := by
  unfold State.idle
  split
  · next hb =>
    split
    · next c hc => exact .inl ⟨hb, c, hc, rfl⟩
    · next hd =>
      split
      · next ht => exact .inr (.inr ⟨fun _ => ⟨hd, ht⟩, rfl⟩)
      · next ht => exact .inr (.inl ⟨hb, hd, ht, rfl⟩)
  · next hb => exact .inr (.inr ⟨fun h => absurd h hb, rfl⟩)

/-- A millisecond in which neither RESET nor the supply calls for a reset leaves the filter short of its time (R184). -/
theorem Pins.holdAfter_lt (x : Pins) (hold : Nat) (h : x.resets hold = false) :
    x.holdAfter hold < Config.resetTime ∧ Config.supplyMin ≤ x.supply := by
  simp only [Pins.resets, Bool.or_eq_false_iff, decide_eq_false_iff_not] at h
  unfold Pins.holdAfter
  constructor
  · split <;> omega
  · omega

/-- An idle step touches the queue, the pins with the RESET filter, the start-up operation, the timebase, the ports' timers,
the round phase, the age of the compute in flight and the count of the CURTAIL filter. -/
theorem State.idle_frame (s : State) : s.idle =
    { s with pending := s.idle.pending
             pins := s.idle.pins
             coming := s.idle.coming
             resetHold := s.idle.resetHold
             boot := s.idle.boot
             now := s.idle.now
             ports := s.idle.ports
             round := { s.round with phase := s.idle.round.phase }
             curtail := { s.curtail with hold := s.idle.curtail.hold }
             engine := { s.engine with inFlight := s.idle.engine.inFlight } } := by
  obtain ⟨-, c, -, h⟩ | ⟨-, -, -, h⟩ | ⟨-, h⟩ := s.idle_cases
  · rw [h]
  · rw [h]
    rfl
  · obtain ⟨-, -, m⟩ | ⟨-, m⟩ := s.mark_cases
    · rw [h, m]
      rfl
    · rw [h, m, s.elapse_frame]

/-- What an idle step may do to a port: nothing, its timers a millisecond on with the count of its presence filter, or its
next tick set (R4, R7, R155, R171). -/
theorem State.idle_get (s : State) (p : PortId) :
    s.idle.ports[p] = s.ports[p] ∨ (∃ n, s.idle.ports[p] = { s.ports[p].millisecond with change := n })
    ∨ s.idle.ports[p] = { s.ports[p] with stage := { s.ports[p].stage with
        nextTick := s.ports[p].stage.nextTick + Config.tickPeriod } } := by
  have e : s.nextPins.ports[p] = s.ports[p] := by rw [s.nextPins_ports]
  obtain ⟨-, c, -, h⟩ | ⟨-, -, -, h⟩ | ⟨-, h⟩ := s.idle_cases
  · exact .inl (by rw [h])
  · rw [h]
    simp only [State.handTicks, Fin.getElem_fin, Vector.getElem_ofFn]
    split
    · exact .inr (.inr rfl)
    · exact .inl rfl
  · obtain ⟨-, -, m⟩ | ⟨-, m⟩ := s.mark_cases
    · exact .inl (by rw [h, m]; exact e)
    · rw [h, m]
      unfold State.elapse
      split
      · exact .inl e
      · exact .inl (by rw [State.dueMillisecond_ports, s.nextPins_ports])
      · split <;> exact .inl e
      · split <;> exact .inl e
      · exact .inr (.inl ⟨s.ports[p].change, by simp [State.failMillisecond, Port.millisecond]⟩)
      · exact .inr (.inl (s.millisecond_get p))

/-! ### Lists of the compute -/

@[simp] theorem floorPass_length (r : Nat) (es : List Ranked) : (floorPass r es).1.length = es.length := by
  induction es generalizing r with
  | nil => rfl
  | cons e es ih => unfold floorPass; split <;> simp [ih]

@[simp] theorem fillPass_length (r : Nat) (es : List Ranked) : (fillPass r es).1.length = es.length := by
  induction es generalizing r with
  | nil => rfl
  | cons e es ih => unfold fillPass; split <;> simp [ih]

@[simp] theorem cutWalk_length (h : Nat) (es : List Ranked) : (cutWalk h es).length = es.length := by
  induction es generalizing h with
  | nil => rfl
  | cons e es ih => unfold cutWalk; split <;> simp [ih]

theorem mem_insertRanked (x y : Ranked) (es : List Ranked) : y ∈ insertRanked x es ↔ y = x ∨ y ∈ es := by
  induction es with
  | nil => simp [insertRanked]
  | cons e es ih =>
    unfold insertRanked
    split
    · simp
    · simp only [List.mem_cons, ih]
      exact ⟨fun h => by rcases h with h | h | h <;> simp [h], fun h => by rcases h with h | h | h <;> simp [h]⟩

/-- The sort keeps the entries. -/
theorem mem_rankSort (y : Ranked) (es : List Ranked) : y ∈ rankSort es ↔ y ∈ es := by
  induction es with
  | nil => simp [rankSort]
  | cons e es ih => simp [rankSort, mem_insertRanked, ih]

/-! ### The end of a frame (R44) -/

/-- What the receiver has seen of the quiet at an end is what the command of that end gives the transmitter. -/
theorem Reception.endOnes_eq (r : Reception) : r.endOnes = Arrival.quiet (judgeEnd r) := by
  unfold Reception.endOnes judgeEnd
  cases r.bare
  · simp only [Bool.false_eq_true, if_false]
    split
    · rfl
    · split <;> rfl
  · rfl

/-- The same after every classification (R44, R77): the receiver hunts on with a run of that many ones. -/
theorem Reception.bit_quiet (r : Reception) (b : Bool) (x : Receiver) (a : Arrival) (h : r.bit b = (x, some a)) :
    ∃ ones zeros, x = .hunting ones zeros ∧ (if zeros = 0 then ones else 0) = a.quiet := by
  have haccept : ∀ n m, r.accept b n m = (x, some a) →
      ∃ ones zeros, x = .hunting ones zeros ∧ (if zeros = 0 then ones else 0) = a.quiet := by
    intro n m h
    unfold Reception.accept at h
    split at h
    · cases h
      exact ⟨0, 1, rfl, rfl⟩
    · cases h
  unfold Reception.bit at h
  repeat' split at h
  all_goals first
    | exact haccept _ _ h
    | (obtain ⟨rfl, ha⟩ := Prod.mk.inj h; obtain rfl := Option.some.inj ha; exact ⟨_, _, rfl, r.endOnes_eq⟩)
    | (obtain ⟨rfl, ha⟩ := Prod.mk.inj h; obtain rfl := Option.some.inj ha; exact ⟨_, _, rfl, rfl⟩)
    | cases h

/-! ### The bits of an attempt (R40, R79, R80) -/

/-- Where a collision is found: after bits that were read back alike stands one that was not. -/
theorem collisionAt_some (driven levels : List Bool) (sent : Nat) (h : collisionAt driven levels = some sent) :
    ∃ (before : List Bool) (b : Bool) (after more : List Bool),
      driven = before ++ b :: after ∧ levels = before ++ (!b) :: more ∧ sent = before.length + 1 := by
  induction driven generalizing levels sent with
  | nil => simp [collisionAt] at h
  | cons d ds ih =>
    cases levels with
    | nil => simp [collisionAt] at h
    | cons l ls =>
      simp only [collisionAt] at h
      split at h
      · obtain ⟨n, hn, rfl⟩ := Option.map_eq_some_iff.1 h
        obtain ⟨before, b, after, more, rfl, rfl, rfl⟩ := ih ls n hn
        exact ⟨d :: before, b, after, more, rfl, by simp_all, rfl⟩
      · exact ⟨[], d, ds, ls, rfl, by cases d <;> cases l <;> simp_all, by simpa using h.symm⟩

/-- An attempt is the whole frame, or some of its first bits and the 10 zeros. -/
theorem Frame.attemptBits_cases (f : Frame) (levels : List Bool) :
    Frame.attemptBits f levels = Frame.lineBits f
    ∨ ∃ (before : List Bool) (b : Bool) (after : List Bool), Frame.lineBits f = before ++ b :: after
        ∧ Frame.attemptBits f levels = before ++ b :: List.replicate 10 false := by
  unfold Frame.attemptBits
  split
  · exact .inl rfl
  · next sent h =>
    obtain ⟨before, b, after, -, hd, -, rfl⟩ := collisionAt_some _ _ _ h
    refine .inr ⟨before, b, after, hd, ?_⟩
    simp [Frame.abortedBits, abortBits, hd, List.take_append, List.take_of_length_le]

/-! ### The restart of the monitors (R160) -/

/-- A restart does what R160 says. -/
theorem Stage.restarted (g : Stage) : g.Restarted g.restart :=
  ⟨rfl, rfl, rfl, rfl, rfl, rfl, rfl, rfl, rfl, rfl, rfl, rfl, rfl⟩

/-! ### What a STATUS tells (R61) -/

/-- A mask's bits are the seven flags it is made of. -/
theorem flagSum_getLsbD : ∀ (b0 b1 b2 b3 b4 b5 b6 : Bool) (i : Fin 7),
    (loByte ([flagBit b0 (2 ^ 0), flagBit b1 (2 ^ 1), flagBit b2 (2 ^ 2), flagBit b3 (2 ^ 3), flagBit b4 (2 ^ 4),
      flagBit b5 (2 ^ 5), flagBit b6 (2 ^ 6)].sum)).getLsbD i.val = [b0, b1, b2, b3, b4, b5, b6].getD i.val false := by
  decide +kernel

/-- A bit of a mask tells of the entry of its condition (R191). -/
theorem InForce.mask_getLsbD (f : InForce) (p : Entry → Bool) (i : Fin 7) (c : Cond) (h : c ∈ allConds[i.val]?) :
    (f.mask p).getLsbD i.val = (f.get c).any p := by
  refine (flagSum_getLsbD _ _ _ _ _ _ _ i).trans ?_
  match i with
  | 0 | 1 | 2 | 3 | 4 | 5 | 6 => cases h; rfl

/-- In a list that rises by `f`, what `find?` finds is the least that has the property. -/
theorem find?_least {α : Type} {f : α → Nat} {p : α → Bool} {l : List α} (hl : l.Pairwise fun a b => f a ≤ f b)
    {a x : α} (ha : l.find? p = some a) (hx : x ∈ l) (hp : p x = true) : f a ≤ f x := by
  induction l with
  | nil => cases hx
  | cons y ys ih =>
    rw [List.find?_cons] at ha
    rw [List.pairwise_cons] at hl
    split at ha
    · cases ha
      rcases List.mem_cons.1 hx with rfl | h
      · exact Nat.le_refl _
      · exact hl.1 _ h
    · rename_i hy
      rcases List.mem_cons.1 hx with rfl | h
      · rw [hy] at hp
        cases hp
      · exact ih hl.2 ha h

/-- A port's summary tells what the port holds (R61). -/
theorem Port.summary_tells (y : Port) : y.summary.Tells y := by
  refine ⟨rfl, rfl, rfl, fun i c h => ⟨?_, ?_, ?_⟩, ?_⟩
  · rw [Port.summary, InForce.mask_getLsbD _ _ i c h]
    cases y.fault.inForce.get c <;> rfl
  · rw [Port.summary, InForce.mask_getLsbD _ _ i c h]
    simp [Option.any_eq_true]
  · rw [Port.summary, InForce.mask_getLsbD _ _ i c h]
    simp [Option.any_eq_true]
  · have hany : ∀ r, (y.fault.inForce.any fun e => e.response == r) = true ↔
        ∃ c ∈ allConds, ∃ e ∈ y.fault.inForce.get c, e.response = r := by
      intro r
      simp [InForce.any, Option.any_eq_true]
    have hentry : ∀ c ∈ allConds, ∀ e ∈ y.fault.inForce.get c,
        (y.fault.inForce.any fun k => k.response == e.response) = true := fun c hc e he => (hany _).2 ⟨c, hc, e, he, rfl⟩
    simp only [Port.summary, InForce.response]
    split
    · next r hr =>
      have hp : (y.fault.inForce.any fun e => e.response == r) = true := by
        simpa using List.find?_some hr
      refine ⟨(hany r).1 hp, ?_, fun c hc e he => ?_⟩
      · have : r ∈ [Response.latch, .retryLong, .retryShort, .holdWhile, .report] := List.mem_of_find?_eq_some hr
        rintro rfl
        simp at this
      · refine Decidable.or_iff_not_imp_left.2 fun hi => ?_
        have hm : e.response ∈ [Response.latch, .retryLong, .retryShort, .holdWhile, .report] := by
          revert hi
          cases e.response <;> decide
        exact find?_least (f := fun k => responseCode (some k)) (by decide) hr hm (hentry c hc e he)
    · next hr =>
      intro c hc e he
      have := hentry c hc e he
      rw [List.find?_eq_none] at hr
      cases h : e.response with
      | ignore => rfl
      | _ => rw [h] at this; exact absurd this (hr _ (by simp))
/-- The contents of a STATUS tell what the part holds at its placement (R61, R182). -/
theorem State.statusMsg_tells (s : State) (periodic : Bool) (health : Health) : (s.statusMsg periodic health).Tells s := by
  refine ⟨rfl, rfl, rfl, rfl, rfl, rfl, fun pad => ⟨fun h => ?_, fun p hp hu => ?_⟩⟩
  · have hn : carrierOf s.cfg pad = none := by
      unfold carrierOf
      rw [List.find?_eq_none]
      intro p _
      simpa using h p
    simp [State.statusMsg, hn]
  · have hc : carrierOf s.cfg pad = some p := by
      cases hc : carrierOf s.cfg pad with
      | some q =>
        unfold carrierOf at hc
        have hq := List.find?_some hc
        rw [hu q (by simpa using hq)]
      | none =>
        unfold carrierOf at hc
        rw [List.find?_eq_none] at hc
        exact absurd hp (by simpa using hc p (List.mem_finRange p))
    have e : (s.statusMsg periodic health).pads[pad] = some s.ports[p].summary := by simp [State.statusMsg, hc]
    rw [e]
    refine ⟨rfl, fun x hx => ?_⟩
    cases hx
    exact Port.summary_tells _

/-- What a STATUS tells depends on the figures it carries only. -/
theorem Status.tells_congr {m : Status} {s t : State} (h : m.Tells s) (hd : t.duplicateId = s.duplicateId)
    (hx : t.sup.conflict = s.sup.conflict) (hs : t.engine.short = s.engine.short)
    (hh : t.engine.headroom = s.engine.headroom) (hm : t.round.mean = s.round.mean) (hl : t.line = s.line)
    (hb : t.badKind = s.badKind) (hc : t.tx.claimsDropped = s.tx.claimsDropped)
    (hn : t.tx.noticesDropped = s.tx.noticesDropped) (hg : t.cfg = s.cfg)
    (hp : ∀ p : PortId, t.ports[p].fault = s.ports[p].fault
      ∧ t.ports[p].session.state = s.ports[p].session.state ∧ t.ports[p].session.errors = s.ports[p].session.errors) :
    m.Tells t := by
  obtain ⟨h1, h2, h3, h4, h5, h6, h7⟩ := h
  refine ⟨by rw [hd, h1], by rw [hx, h2], by rw [hs, h3], by rw [hh, h4], by rw [hm, h5], by rw [hl, hb, hc, hn, h6], ?_⟩
  intro pad
  obtain ⟨ha, hr⟩ := h7 pad
  refine ⟨by rw [hg]; exact ha, fun p => ?_⟩
  rw [hg]
  intro k u
  obtain ⟨hsome, ht⟩ := hr p k u
  refine ⟨hsome, fun x hx => ?_⟩
  have := ht x hx
  unfold Summary.Tells at this ⊢
  rw [(hp p).1, (hp p).2.1, (hp p).2.2]
  exact this
end Sys2Proof.Machine
end

