-- ==== Sys2Proof/Tests/Slice0.lean ====
section
/-! SUPPORT. Tests/Slice0.lean: small tests, each with the place in spec/ its expected figures come from; the refusals of
WellFormed; and, for each statement with hypotheses, a witness that its hypotheses can be met together. -/

namespace Sys2Proof.Tests

open Sys2Proof Sys2Proof.Machine

/-! ### Helpers -/

/-- What a completed command leaves, seen through `f`. -/
def after {α : Type} (o : Host.Outcome State Fault Refusal) (f : State → α) : Option α :=
  match o with
  | .next t => some (f t)
  | _ => none

/-- The node of §8.10 and §9.6: L_cfg 8000, G 400, N_cfg 4, Δup 200, P_c 50, S 1900. -/
def cfgA : Configuration where
  feederId := 7
  nCfg := 4
  lCfg := 8000
  guard := 400
  dUp := 200
  pc := 50
  window := 4
  vLow := 600
  vHigh := 850
  portMap := Vector.ofFn some
  rating := Vector.replicate 4 1500
  responses := ResponseTable.defaults
  align := .continuous
  alertRoute := true
  clamped := false
  solo := 1900

/-- Node 1, start-up complete, in HUNT. -/
def base : State :=
  { State.fresh .running 1 cfgA 1 with sup := { Supervisor.reset with faultPin := false } }

/-- The state with port 0 rewritten. -/
def at0 (s : State) (f : Port → Port) : State := s.updPort 0 f

/-- The presence inputs show the given levels, and port 0's has held the other level for `ms` milliseconds. -/
def shows (presence : BitVec 4) (ms : Nat) (s : State) : State :=
  { at0 s fun x => { x with change := ms } with pins := { s.pins with presence := presence } }

/-- The CURTAIL pin shows the level, and has held it against the filtered one for `ms` milliseconds. -/
def curtailShows (low : Bool) (ms : Nat) (s : State) : State :=
  { s with pins := { s.pins with curtail := low }, curtail := { s.curtail with hold := ms } }

/-- The part before start-up completes. -/
def starting (boot : Boot) (busLow : Bool) : State := { State.reset with boot := boot, pins := { State.reset.pins with busLow := busLow } }

/-- The state with no measure tick due for a second. -/
def noTick (s : State) : State :=
  { s with ports := Vector.ofFn fun p : Fin 4 => { s.ports[p] with stage := Stage.reset 1000 } }

/-- Logical pad 0 ARRIVED. -/
def arrived : State := at0 base fun x => { x with level := true, session := Session.empty .arrived 0 }

/-- The session of §2.3 at its start: E 450, T 1800, P_max 1500, P_min 300. -/
def sessionA (state : PadState) : Session :=
  { Session.empty state 0 with
    vehicle := 40211, cls := 2, energy := 450, timeLeft := some 1800, pMax := 1500, pMin := some 300, urgency := 120
    lastHeard := some 0, watch := some 0 }

/-- Logical pad 0 with that session in a state, at a command of 900 sent at the tick before. -/
def pad0 (state : PadState) : State :=
  at0 base fun x =>
    { x with
      level := true, session := sessionA state, alloc := ⟨900, 900, 900, 900⟩
      stage := { x.stage with setpoint := 900, tick := 900, enable := true } }

/-- Port 0 waits for the answer of a tick. -/
def awaiting (s : State) : State := at0 s fun x => { x with stage := { x.stage with awaiting := some 0 } }

/-- Port 0 with an entry in its in-force set, its timer and its retry count. -/
def withEntry (s : State) (c : Cond) (e : Entry) (timer : Option Nat) (retries : Nat) : State :=
  at0 s fun x => { x with fault := ⟨InForce.empty.put c (some e), timer, retries⟩ }

/-- In step, COORDINATED, with the snapshot free. -/
def inStep (s : State) : State :=
  { s with line := { s.line with acq := .inStep, span := some 2 }
           curtail := { s.curtail with mode := .coordinated }
           sup := { s.sup with current := ⟨true, false, false, false, false⟩
                               recorded := ⟨true, false, false, false, false⟩ } }

/-- In TRIAL at a count. -/
def trial (n : Nat) : State := { base with line := { base.line with acq := .trial, trial := n } }

/-- In step with one frame queued. -/
def queued (f : Frame) : State :=
  let s := inStep base
  { s with line := { s.line with queue := [⟨f, false, ⟨40, 0⟩⟩] } }

/-- A CLAIM of node 0 with phase 33 and the entry of §3.x of the layouts: pad 1, class 2, U 120, taper. -/
def claimA : Claim := ⟨.coordinated, false, 33, 900, [⟨1, 2, 120, false, true, false, 300, 900, 700, 650⟩]⟩

/-- Frames of the kinds, from node 2 or observer 20. -/
def claimFrame : Frame := ⟨0x11, 2, 7, claimA.bytes⟩
def announceFrame : Frame := ⟨0x12, 2, 7, Announce.bytes ⟨7000, 400, 4, 50, .monitor, false, 3⟩⟩
def statusFrame : Frame :=
  ⟨0x13, 2, 7, Status.bytes
    ⟨Health.start, false, true, .none, false, false, 0, none, Vector.replicate 4 none, ⟨0, 0, 0, 0, 0, 0, 0⟩⟩⟩
def curtailFrame : Frame := ⟨0x14, 2, 7, [1, 60]⟩
def directiveFrame (target action : Byte) : Frame := ⟨0x21, 20, 0xFF, [target, action, 0x11]⟩

/-- The DIRECTIVE of those bytes: pad 0 and the node bit. -/
def directive (target : Nat) (a : Action) : Directive := ⟨target, a, #v[true, false, false, false], true⟩

/-- The state with a notice on the line, its abort sequence running or not. -/
def sending (s : State) (o : OnLine) (abort : Bool) : State := { s with tx := { s.tx with onLine := some (o, abort) } }

/-- The record of §1.11. -/
def dockA : DockRecord := ⟨40211, 2, 450, 1800, some 1800, some 300⟩

/-- The fields of the image of §12.5. -/
def fieldsA : List Byte :=
  [0x54, 0xC4, 12, 8] ++ [hiByte 65500, loByte 65500] ++ [hiByte 20000, loByte 20000] ++ [0, 250] ++ [50, 0, 4]
    ++ [hiByte 880, loByte 880] ++ [hiByte 900, loByte 900] ++ [0, 1, 0xFF, 2]
    ++ [5, 0xDC, 5, 0xDC, 5, 0xDC, 5, 0xDC] ++ [2, 1, 0, 4, 2, 3, 3] ++ [1]

/-- The image of §12.5: 37 bytes of fields, 89 zeros, and the CRC. -/
def imageA : List Byte := fieldsA ++ List.replicate 89 0 ++ [0x21, 0xDF]

/-- The part that has read it, strapped as a node. -/
def readingA (id : NodeId) : State := { State.reset with nodeId := id, boot := .reading 2 12 }

/-- The CRC register after more bytes. -/
theorem crc_step (r r' : BitVec 16) (a b : List Byte) (h : (bytesBits a).foldl crc16Bit r = r') :
    (bytesBits (a ++ b)).foldl crc16Bit r = (bytesBits b).foldl crc16Bit r' := by
  have e : ∀ x y : List Byte, bytesBits (x ++ y) = bytesBits x ++ bytesBits y := by
    intro x y
    induction x with
    | nil => rfl
    | cons c cs ih => simp [bytesBits, ih]
  rw [e, List.foldl_append, h]

/-- The CRC of the image, 40 bytes at a time. -/
theorem crc_imageA : crc16 (imageA.take 126) = 0x21DF#16 := by
  have e : imageA.take 126 = fieldsA ++ (List.replicate 40 0 ++ (List.replicate 40 0 ++ List.replicate 9 0)) := by
    decide +kernel
  rw [e, crc16, crc_step 0xFFFF#16 0x6C31#16 _ _ (by decide +kernel),
    crc_step 0x6C31#16 0xD03C#16 _ _ (by decide +kernel), crc_step 0xD03C#16 0x2AF5#16 _ _ (by decide +kernel)]
  decide +kernel

/-- The 128 bytes of the image. As its bound is a fact of its own, this definition waits until the kernel has checked
all that stands before it, and the tests after it do not pile up. -/
def imageBytes : Fin 129 := ⟨128, by decide +kernel⟩

/-- §12.5: the checks pass for node 5. -/
theorem test_image_passes_its_checks : imageGood imageA 5 = true := by
  unfold imageGood
  rw [crc_imageA]
  decide +kernel

/-- §12.5: had the strap id been 8, the checks would have failed. -/
theorem test_node_id_at_n_cfg_fails : imageGood imageA 8 = false := by
  unfold imageGood
  rw [crc_imageA]
  decide +kernel

/-! ### WellFormed: each check refuses an ill-formed term -/

theorem test_image_of_127_bytes_is_ill_formed :
    (Instr.configReadComplete (List.replicate 127 0) 0).wellFormed = false := by decide +kernel
theorem test_image_of_129_bytes_is_ill_formed :
    (Instr.configReadComplete (List.replicate 129 0) 0).wellFormed = false := by decide +kernel
theorem test_known_kinds_are_not_unknown :
    (Instr.unknownKindRecord 0 1).wellFormed = false ∧ (Instr.unknownKindRecord 0 2).wellFormed = false
      ∧ (Instr.unknownKindRecord 0 3).wellFormed = false ∧ (Instr.unknownKindRecord 0 4).wellFormed = true := by decide
theorem test_body_of_256_bytes_is_ill_formed :
    (Instr.frameGood ⟨0x11, 0, 7, List.replicate 256 0⟩ 0).wellFormed = false
      ∧ (Instr.frameGood ⟨0x11, 0, 7, List.replicate 255 0⟩ 6).wellFormed = true := by decide +kernel
theorem test_frame_age_of_7_is_ill_formed :
    (Instr.frameGood ⟨0x11, 0, 7, []⟩ 7).wellFormed = false ∧ (Instr.frameBad .badEnd 7).wellFormed = false
      ∧ (Instr.frameAborted 7).wellFormed = false ∧ (Instr.frameAborted 6).wellFormed = true := by decide
theorem test_ill_formed_command_stops : exec (.frameAborted 7) base = .fault .illFormed := rfl
theorem test_table_gives_no_bits : decodeTableWord 8 0x5A = none ∧ (base.withFetchWord 8 0x5A) = base := by decide

/-- The commands of the table. As its bound is a fact of its own, this definition waits until the kernel has checked all
that stands before it, and the tests after it do not pile up. -/
def tableRows : Fin 40 := ⟨39, by decide +kernel⟩

/-! ### Formats -/

/-- The CRC parameters of R42 and R190 on the digits 1 to 9: the catalogue's check values of CRC-16/CMS and of CRC-8 preset to
0xFF without inversion (from outside the manual). -/
theorem test_crc_check_values :
    crc16 [0x31, 0x32, 0x33, 0x34, 0x35, 0x36, 0x37, 0x38, 0x39] = 0xAEE7#16
      ∧ crc8 [0x31, 0x32, 0x33, 0x34, 0x35, 0x36, 0x37, 0x38, 0x39] = 0xFB#8 := by decide +kernel

/-- §3.2: 1 1 1 1 1 0 0 0 0 0 1 1 goes out as 1 1 1 1 1 0 0 0 0 0 1 0 1 1. -/
theorem test_stuffing : stuff [true, true, true, true, true, false, false, false, false, false, true, true]
    = [true, true, true, true, true, false, false, false, false, false, true, false, true, true] := by decide +kernel

/-- R40, R44, R80: a stop one bit into the content of a CURTAIL notice, whose kind 0x14 begins with a 0: 7 zeros, a 1, that 0
and 10 zeros, one aborted frame. -/
theorem test_abort_is_heard :
    Frame.attemptBits curtailFrame (List.replicate 7 false ++ [true, true])
        = List.replicate 7 false ++ [true, false] ++ List.replicate 10 false
      ∧ (Receiver.run (.hunting 12 0) (Frame.abortedBits curtailFrame 9)).2 = [.aborted] := by decide +kernel

/-- R40, R79: an attempt at an URGENT notice puts its whole frame on the line when each bit is read back as driven, and stops at
the first SOF zero read back as 1. -/
theorem test_attempt_bits_of_the_notice_on_the_line :
    let s : State := { base with tx := { base.tx with urgent := [(⟨true, 60⟩, 0)], onLine := some (.urgent, false) } }
    s.attemptBits [] = Frame.lineBits (ownFrame base.nodeId base.cfg.feederId kindCurtail [1, 60])
      ∧ s.attemptBits [true] = List.replicate 11 false := by decide +kernel

/-- R44, R81: stops at the last bit but two, and at the last bit but one, of the end sequence. -/
theorem test_abort_in_the_end_sequence :
    (Receiver.run (.hunting 12 0) (Frame.abortedBits curtailFrame ((Frame.lineBits curtailFrame).length - 2))).2 = [.bad .sixOnes]
      ∧ (Receiver.run (.hunting 12 0) (Frame.abortedBits curtailFrame ((Frame.lineBits curtailFrame).length - 1))).2
        = [.good curtailFrame] := by decide +kernel

/-- R43, R44: a driver released right after the SOF mark: the closing 1 and seven more ones are eight quiet bit times. -/
theorem test_released_after_the_sof :
    (Receiver.hunting 12 0).run (List.replicate 7 false ++ List.replicate 8 true) = (.hunting 8 0, [.bad .bareEnd])
      ∧ BadCause.quiet .bareEnd = 8 := by decide +kernel

/-- R40 to R45: a CURTAIL frame is heard as it is sent. -/
theorem test_frame_is_heard : (Receiver.run (.hunting 12 0) (Frame.lineBits curtailFrame)).2 = [.good curtailFrame] := by
  decide +kernel

/-- R191: the entry byte 0 carries pad 1, class 2 and the taper mark: 1 + 4·2 + 32 = 41. -/
theorem test_claim_entry_byte : claimA.bytes.getD 6 0 = 41 ∧ claimA.bytes.length = 16 := by decide

/-- R190: 0xC3 on a UART link: the start bit 0, then 1 1 0 0 0 0 1 1 from bit 0 up, then the stop bit 1; heard after 96 quiet
bit times without a gap, after 97 with one, and with its stop bit at 0 as a framing error (R6). -/
theorem test_uart_character :
    uartBits 0xC3 = [false, true, true, false, false, false, false, true, true, true]
      ∧ ((UartReceiver.idle 0).run (List.replicate 96 true ++ uartBits 0xC3)).2 = [⟨0xC3, false, false⟩]
      ∧ ((UartReceiver.idle 0).run (List.replicate 97 true ++ uartBits 0xC3)).2 = [⟨0xC3, false, true⟩]
      ∧ ((UartReceiver.idle 0).run ((uartBits 0x12).take 9 ++ [false])).2 = [⟨0x12, true, false⟩] := by decide +kernel

/-- R190: the setpoint message's start byte 0x5A on the stage port. -/
theorem test_uart_of_a_setpoint_message :
    (uartLine (setpointMessage 680)).take 10 = [false, false, true, false, true, true, false, true, false, true] := by
  decide +kernel

/-- R192: an answer of 640 pu, 700 and the fault flag; the same with a bad CRC. -/
theorem test_answer_on_the_line :
    answerOnLine (uartLine [0x6B, 2, 0x80, 2, 0xBC, 1, crc8 [2, 0x80, 2, 0xBC, 1]]) = some ⟨640, 700, true⟩
      ∧ answerOnLine (uartLine [0x6B, 2, 0x80, 2, 0xBC, 1, 0]) = none := by decide +kernel

/-- R193: the device address 0x54 with the write bit is 1 0 1 0 1 0 0 0 on the bus, then the released ninth bit. -/
theorem test_device_address_on_the_bus :
    (readAttempt.getD 1 .stop).drives = [true, false, true, false, true, false, false, false, true] := by decide +kernel

/-- R185: each of the three acknowledges missing, and a memory that stalls. -/
theorem test_image_read_fails :
    (∀ k : Fin 3, imageRead (List.replicate k.val false ++ [true]) = .failed .noAcknowledge)
      ∧ imageRead (List.replicate 3 false ++ bytesBits [0x54, 0xC4]) = .failed .timedOut := by decide +kernel

/-- R192: a DEPART record of vehicle 40211 (0x00009D13) on the link. -/
theorem test_depart_record :
    (ContactReceiver.run .hunting ((recordBytes 3 [0, 0, 0x9D, 0x13]).map fun b => ⟨b, false, false⟩)).2.map
      (RecordArrival.command 1) = [.depart 1 40211] := by decide +kernel

/-- R6: a character framed badly makes the record malformed. -/
theorem test_bad_framing_is_malformed :
    (ContactReceiver.run .hunting [⟨0xC3, false, false⟩, ⟨5, false, false⟩, ⟨3, true, false⟩]).2 = [.malformed] := by
  decide

/-- R6, R192: a length of 0xC3 is out of range; the record is malformed, and the hunt goes on with the next character
(log 42). -/
theorem test_start_byte_as_length :
    ContactReceiver.run .hunting [⟨0xC3, false, false⟩, ⟨0xC3, false, false⟩] = (.hunting, [.malformed]) := by decide

/-- R192: the setpoint 680 (0x02A8) is sent most significant byte first after 0x5A. -/
theorem test_setpoint_message : (setpointMessage 680).take 3 = [0x5A, 0x02, 0xA8] := by decide +kernel

/-- The numbered rules of spec/. As its bound is a fact of its own, this definition waits until the kernel has checked
all that stands before it, and the tests after it do not pile up. -/
def specRules : Fin 195 := ⟨194, by decide +kernel⟩

/-! ### The commands, in the table's order -/

/-- R184. -/
theorem test_reset : after (exec .reset (pad0 .charging)) (fun t =>
    (t.boot, t.ports[0].session.state, t.ports[0].stage.enable, t.sup.faultPin, t.sup.alertPin))
    = some (.held, .vacant, false, true, false) := by decide

/-- R185: an attempt that is due while the bus is held low begins when it is freed, and fails after 10 ms. -/
theorem test_due_attempt :
    after (exec (.startupBegin 5) (starting .held true)) State.boot = some (.due 1 0)
    ∧ after (step (starting (.due 1 3) false)) State.boot = some (.reading 1 0)
    ∧ after (step (starting (.due 1 8) true)) State.boot = some (.due 1 9)
    ∧ after (step (starting (.due 1 9) true)) State.pending = some [.configReadAttemptFail .busHeldLow] := by decide

/-- R185: the 30 ms of an attempt count from its beginning. -/
theorem test_read_window :
    after (step (starting (.reading 1 28) false)) (fun t => (t.boot, t.pending)) = some (.reading 1 29, [])
    ∧ after (step (starting (.reading 1 29) false)) State.pending = some [.configReadAttemptFail .timedOut] := by decide

/-- §12.5: the cabinet is strapped as node 5. -/
theorem test_startup_begin : after (exec (.startupBegin 5) State.reset) (fun t => (t.nodeId, t.boot))
    = some (5, .reading 1 0) := by decide

/-- R185. -/
theorem test_fourth_failure_enters_config_fail :
    after (exec (.configReadAttemptFail .timedOut) { State.reset with boot := .reading 4 12 }) State.boot
      = some .configFail
    ∧ after (exec (.configReadAttemptFail .noAcknowledge) { State.reset with boot := .reading 3 2 }) State.boot
      = some (.waiting 3 0) := by decide

theorem test_read_retry : after (exec .configReadRetry { State.reset with boot := .waiting 1 10 }) State.boot
    = some (.reading 2 0) := by decide

/-- §12.5: the clamps, S, and logical pad 0 ARRIVED. -/
theorem test_startup_completes : ∃ t : State, exec (.configReadComplete imageA 1) (readingA 5) = .next t
    ∧ (t.boot, t.cfg.lCfg, t.cfg.guard, t.cfg.vLow, t.cfg.clamped, t.cfg.solo)
      = (.running, 65000, 16250, 859, true, 6093)
    ∧ (t.ports[0].session.state, t.ports[1].session.state, t.cfg.responses.stageFault, t.ports[3].stage.nextTick)
      = (.arrived, .vacant, .latch, 75) := by
  have w : (Instr.configReadComplete imageA 1#4).wellFormed = true := by decide +kernel
  refine ⟨(readingA 5).complete imageA 1, ?_, by decide +kernel, by decide +kernel⟩
  simp [exec, execConfigReadComplete, w, readingA, test_image_passes_its_checks]

/-- A millisecond of the running part with the given pins, RESET having been low for `hold` µs before it. -/
def underReset (hold : Nat) (pins : Pins) : State := noTick { base with resetHold := hold, coming := [pins] }

/-- R184, R194: a RESET low of 999 µs is discarded, one of 1,000 µs is a reset; and so is a supply of 2.849 V, not of 2.85 V. -/
theorem test_reset_filter :
    after (step (underReset 500 { base.pins with resetLead := 499 })) (fun t => (t.pending, t.resetHold)) = some ([], 0)
    ∧ after (step (underReset 500 { base.pins with resetLead := 500 })) State.pending = some [.reset]
    ∧ after (step (underReset 0 { base.pins with resetTail := 999 })) (fun t => (t.pending, t.resetHold)) = some ([], 999)
    ∧ after (step (underReset 0 { base.pins with supply := 2849 })) State.pending = some [.reset]
    ∧ after (step (underReset 0 { base.pins with supply := 2850 })) State.pending = some [] := by decide +kernel

/-- R184: start-up does not begin while the supply is below 2.85 V or RESET is low. -/
theorem test_startup_waits_for_the_release :
    after (exec (.startupBegin 5) { State.reset with pins := { State.reset.pins with supply := 2849 } }) State.boot = some .held
    ∧ after (exec (.startupBegin 5) { State.reset with resetHold := 1 }) State.boot = some .held := by decide

/-- §1.11, 50 ms. -/
theorem test_presence_rise : after (exec (.presenceRise 0) (shows 1 50 base)) (fun t => (t.ports[0].session.state, t.ports[0].level))
    = some (.arrived, true) := by decide

/-- R4: an excursion of 49 ms has no effect; the fiftieth millisecond hands over the edge; a level that goes back starts the
count again. -/
theorem test_presence_filter :
    after (exec (.presenceRise 0) (shows 1 49 base)) (fun t => t.ports[0].session.state) = some .vacant
    ∧ after (step (noTick (shows 1 49 base))) (fun t => (t.pending, t.ports[0].change)) = some ([.presenceRise 0], 50)
    ∧ after (step (noTick { shows 1 49 base with coming := [base.pins] })) (fun t => (t.pending, t.ports[0].change))
      = some ([], 0) := by decide +kernel

/-- §1.11, 12.0 s, and R4 of an admitted session. -/
theorem test_presence_fall :
    after (exec (.presenceFall 0) (shows 0 50 arrived)) (fun t => t.ports[0].session.state) = some .vacant
    ∧ after (exec (.presenceFall 0) (shows 0 50 (pad0 .charging))) (fun t =>
      (t.ports[0].session.state, t.ports[0].alloc.command, t.ports[0].stage.enable)) = some (.vacant, 0, false) := by
  decide

/-- R6: the count saturates at 255. -/
theorem test_malformed_record :
    after (exec (.malformedRecord 0) (at0 base fun x => { x with session := { x.session with errors := 255 } }))
      (fun t => t.ports[0].session.errors) = some 255 := by decide

/-- §1.11, 0.8 s: OK, WAITING, 0, 450, with the maximum clamped to 1500. -/
theorem test_dock : after (exec (.dock 0 dockA) arrived) (fun t =>
    (t.ports[0].session.pMax, t.ports[0].session.urgency, t.ports[0].link.reply))
    = some (1500, 120, some (⟨0, .waiting, 0, 450, .ok⟩, 0)) := by decide

/-- R9: a maximum power of 0. -/
theorem test_dock_refused : after (exec (.dock 0 { dockA with maxPower := 0 }) arrived) (fun t =>
    (t.ports[0].session.state, t.ports[0].link.reply)) = some (.arrived, some (⟨0, .arrived, 0, 0, .badRequest⟩, 0)) := by
  decide

/-- §2.3: with T at 1400 an UPDATE with energy 450 and max power 1200 makes U 193. -/
theorem test_update : after (exec (.update 0 ⟨450, none, some 1200⟩)
    (at0 (pad0 .charging) fun x => { x with session := { x.session with timeLeft := some 1400 } })) (fun t =>
      (t.ports[0].session.urgency, t.ports[0].link.reply)) = some (193, some (⟨0, .charging, 900, 450, .ok⟩, 0)) := by
  decide

/-- §1.11, 4.6 s: FAULT, HELD, 0, 440. -/
theorem test_update_held :
    after (exec (.update 0 ⟨440, none, none⟩) (withEntry (pad0 .held) .overDraw ⟨.retryShort, false⟩ (some 3500) 0))
      (fun t => t.ports[0].link.reply) = some (some (⟨0, .held, 0, 440, .fault⟩, 0)) := by decide

/-- §1.11, 9.0 s and 9.7 s. -/
theorem test_depart :
    after (exec (.depart 0 40212) (pad0 .waiting)) (fun t => t.ports[0].link.reply.map fun r => r.1.reason)
      = some (some .badRequest)
    ∧ after (exec (.depart 0 40211) (pad0 .waiting)) (fun t => t.ports[0].link.reply)
      = some (some (⟨0, .arrived, 0, 0, .ok⟩, 0)) := by decide

theorem test_unknown_kind : after (exec (.unknownKindRecord 0 9) arrived) (fun t => t.ports[0].link.reply)
    = some (some (⟨0, .arrived, 0, 0, .badRequest⟩, 0)) := by decide

/-- R15: the physical port stands for the pad. -/
theorem test_record_in_config_fail :
    after (exec (.recordInConfigFail 2 1) { State.reset with boot := .configFail }) (fun t => t.ports[2].link.reply)
      = some (some (⟨2, .vacant, 0, 0, .fault⟩, 0)) := by decide

theorem test_pad_reply :
    after (exec (.padReply 0) (at0 base fun x => { x with link := ⟨some (⟨0, .arrived, 0, 0, .ok⟩, 5), none⟩ }))
      (fun t => t.ports[0].link) = some ⟨none, some ⟨0, .arrived, 0, 0, .ok⟩⟩ := by decide

/-- R19 with the default LATCH. -/
theorem test_contact_loss : after (exec (.contactLoss 0) (pad0 .charging)) (fun t =>
    (t.ports[0].session.state, t.ports[0].fault.inForce.contactLoss, t.ports[0].alloc.command, t.sup.faultPin))
    = some (.held, some ⟨.latch, true⟩, 0, true) := by decide

/-- R28, R30, R32: T falls from 1 to 0, the session is overdue and U is 255. -/
theorem test_second_mark : after (exec .secondMark
    (at0 (pad0 .charging) fun x => { x with session := { x.session with timeLeft := some 1 } })) (fun t =>
      (t.ports[0].session.timeLeft, t.ports[0].session.overdue, t.ports[0].session.urgency))
    = some (some 0, true, 255) := by decide

/-- A heard, LIVE peer with a phase error. -/
def live (e : Int) : PeerEntry := ⟨true, 0, some ⟨.coordinated, []⟩, 0, none, some e, false⟩

/-- §7.6, B1: errors 40, 36 and 12 have the mean 29, and the round is 493 ms. -/
theorem test_round_boundary : after (exec .roundBoundary
    { inStep base with peers := ((base.peers.set 0 (live 40)).set 2 (live 36)).set 3 (live 12)
                       sup := { (inStep base).sup with latched := true, outstanding := true } }) (fun t =>
      (t.round.mean, t.round.length, t.round.phaseOut)) = some (some 29, 493, true) := by decide

/-- §12.5, 524 ms: the solo compute of the first boundary has the budget S. -/
theorem test_round_boundary_starts_a_compute : after (exec .roundBoundary base) (fun t =>
    t.engine.inFlight.map fun c => (c.kind, c.mode, c.budget)) = some (some (.regular, .solo, 1900)) := by decide

/-- §3.8, 1240 ms: the fourth good frame. -/
theorem test_frame_good : after (exec (.frameGood claimFrame 1) (trial 3)) (fun t =>
    (t.line.acq, t.line.span, t.line.announce, t.tx.announce.isSome)) = some (.inStep, some 0, 0, true) := by decide

/-- R65: with the queue full the newest gives way, marked. -/
theorem test_frame_good_overrun : after (exec (.frameGood curtailFrame 1)
    { queued claimFrame with line := { (queued claimFrame).line with
        queue := [⟨claimFrame, false, ⟨1, 0⟩⟩, ⟨claimFrame, false, ⟨2, 0⟩⟩, ⟨claimFrame, false, ⟨3, 0⟩⟩] } }) (fun t =>
      (t.line.queue.map fun q => (q.notice.kind, q.overrun), t.line.overruns))
    = some ([(0x11, false), (0x11, false), (0x14, true)], 1) := by decide

/-- §3.8, 560 ms: a CRC mismatch in TRIAL. -/
theorem test_frame_bad : after (exec (.frameBad .badEnd 1) (trial 2)) (fun t => (t.line.acq, t.line.trial, t.line.bad))
    = some (.hunt, 0, 1) := by decide

/-- §3.8, 1180 ms. -/
theorem test_frame_aborted : after (exec (.frameAborted 1) (trial 3)) (fun t => (t.line.acq, t.line.trial, t.line.aborted))
    = some (.trial, 3, 1) := by decide

theorem test_notice_rejected : after (exec .noticeRejected (queued ⟨0x11, 16, 7, claimA.bytes⟩)) (fun t =>
    (t.badKind, t.line.queue)) = some (1, []) := by decide

/-- R90, R108: the claim's phase 33 at the own phase 40. -/
theorem test_drain_claim : after (exec .drainClaim (queued claimFrame)) (fun t =>
    (t.peerState 2, t.peers[2].phaseErr, t.peers[2].draw)) = some (.live, some (-7), 900) := by decide

/-- §6.9: an L_cfg of 7000 lowers L_low. -/
theorem test_drain_announce : after (exec .drainAnnounce (queued announceFrame)) (fun t =>
    (t.lLow, t.sup.current.ceilingReduced)) = some (7000, true) := by decide

theorem test_drain_status : after (exec .drainStatus (queued statusFrame)) (fun t => t.peers[2].dupMark)
    = some true := by decide

/-- §9.6, 260 ms, without local curtail: an assert of 60 % makes target and ceiling 4800. -/
theorem test_drain_curtail : after (exec .drainCurtail (queued curtailFrame)) (fun t =>
    (t.curtail.set[2], t.curtail.target, t.curtail.ceiling)) = some (some ⟨60, 0⟩, 4800, 4800) := by decide

/-- The escalated pad of §11.5 at 60.0 s, with the directive of an observer queued. -/
def escalated (action : Byte) : State :=
  let s := withEntry (pad0 .held) .overDraw ⟨.latch, false⟩ none 3
  let t := inStep s
  { t with sup := { t.sup with current := { t.sup.current with padHeldAny := true } }
           line := { t.line with queue := [⟨directiveFrame 1 action, false, ⟨0, 0⟩⟩] } }

/-- §11.5, 60.0 s: the LATCH goes, the count becomes 0 and the pad is WAITING. -/
theorem test_directive_clear : after (exec .directiveClear (escalated 1)) (fun t =>
    (t.ports[0].fault.inForce, t.ports[0].fault.retries, t.ports[0].session.state, t.sup.faultPin))
    = some (InForce.empty, 0, .waiting, false) := by decide

/-- §1.11: PAD_OFFLINE while HELD leaves the entry. -/
theorem test_directive_pad_offline : after (exec .directivePadOffline (escalated 2)) (fun t =>
    (t.ports[0].session.state, t.ports[0].fault.inForce.overDraw, t.ports[1].session.state))
    = some (.offline, some ⟨.latch, false⟩, .vacant) := by decide

/-- R21: presence was remembered. -/
theorem test_directive_pad_online : after (exec .directivePadOnline
    (at0 (escalated 3) fun x => { x with session := Session.empty .offline 0 })) (fun t => t.ports[0].session.state)
    = some .arrived := by decide

/-- The compute of round 60 in §8.10, with its Rank List. -/
def round60 : Compute where
  kind := .regular
  mode := .coordinated
  demands := [⟨0, 2, 180, false, false, 500, 2000⟩, ⟨2, 1, 200, false, false, 400, 1000⟩]
  budget := 5700
  short := false
  ranks := [⟨2, false, 3, 3, 10, 0, 2500, 2300, 0, false⟩, ⟨1, true, 0, 2, 180, 500, 2000, 0, 0, false⟩,
    ⟨0, false, 0, 2, 120, 300, 1500, 900, 0, false⟩, ⟨1, true, 2, 1, 200, 400, 1000, 0, 0, false⟩,
    ⟨0, false, 1, 1, 40, 0, 1200, 0, 0, false⟩]
  eligible := #v[true, false, true, false]
  stopped := Vector.replicate 4 false
  elapsed := 3

/-- §8.10: node 1 in round 60. -/
def node1 : State :=
  let s := inStep (at0 (pad0 .charging) fun x => { x with alloc := ⟨1700, 1700, 1700, 1700⟩ })
  let t := s.updPort 2 fun x => { x with session := sessionA .charging, alloc := ⟨600, 600, 600, 600⟩ }
  { t with engine := { t.engine with inFlight := some round60 } }

/-- §8.10: grants 2500, 2000, 800, 0 (cut by the overhang) and 0, headroom 0. -/
theorem test_passes_and_overhang : (round60.run.1.map Ranked.grant, round60.run.2) = ([2500, 2000, 800, 0, 0], 0) := by
  decide

/-- §8.10: the results of pads 0 and 2. -/
theorem test_compute_completion : after (exec .computeCompletion node1) (fun t => (t.ports[0].alloc, t.ports[2].alloc))
    = some (⟨2000, 1900, 1700, 1700⟩, ⟨0, 0, 0, 0⟩) := by decide +kernel

/-- §5.7: after a backoff draw of 1 the attempt needs 44 quiet bit times. -/
theorem test_attempt_start :
    let s := { base with tx := { base.tx with claim := some (claimA, 1), backoff := 1 }
                         round := { base.round with phase := 77 } }
    after (exec (.attemptStart ⟨true, 43⟩) s) (fun t => t.tx.onLine.isSome) = some false
    ∧ after (exec (.attemptStart ⟨true, 44⟩) s) (fun t => (t.tx.onLine, t.tx.claim, t.tx.backoff))
      = some (some (.routine (.claim { claimA with phase := 77 }) 1, false), none, 0) := by decide +kernel

/-- §8.10: the claim's intent of 1900 raises the command from 1700. -/
theorem test_transmission_complete : after (exec .transmissionComplete
    (sending (at0 (inStep (pad0 .charging)) fun x => { x with alloc := ⟨2000, 1900, 1700, 1700⟩ })
      (.routine (.claim ⟨.coordinated, false, 0, 0, [⟨0, 2, 180, false, false, false, 500, 2000, 1900, 1690⟩]⟩) 0) false))
    (fun t => (t.ports[0].alloc.command, t.tx.onLine, t.tx.quiet)) = some (1900, none, 8) := by decide

theorem test_collision : after (exec .collision (sending base (.routine (.claim claimA) 0) false)) (fun t => t.tx.onLine)
    = some (some (.routine (.claim claimA) 0, true)) := by decide

/-- R84: the fourth collision drops the CLAIM; R82: a first one gives it back. -/
theorem test_abort_end :
    after (exec .abortEnd (sending base (.routine (.claim claimA) 3) true)) (fun t => (t.tx.claim, t.tx.claimsDropped))
      = some (none, 1)
    ∧ after (exec .abortEnd (sending base (.routine (.claim claimA) 0) true)) (fun t => (t.tx.claim, t.tx.lfsr))
      = some (some (claimA, 1), 2) := by decide

/-- §9.6, 140 ms: the ceiling falls to 4000 and a compute runs with 3600. -/
theorem test_curtail_assertion : after (exec .curtailAssertion <| curtailShows true 20
    { inStep base with peers := ((base.peers.set 0 (live 0)).set 2 (live 0)).set 3 (live 0) }) (fun t =>
      (t.curtail.target, t.curtail.ceiling, t.engine.inFlight.map Compute.budget, t.tx.urgent.map Prod.fst))
    = some (4000, 4000, some 3600, [⟨true, 50⟩]) := by decide

/-- R142: an excursion of 19 ms has no effect, and the twentieth millisecond hands over the assertion. -/
theorem test_curtail_filter :
    after (exec .curtailAssertion (curtailShows true 19 base)) (fun t => t.curtail.pin) = some false
    ∧ after (step (noTick (curtailShows true 19 base))) State.pending = some [.curtailAssertion] := by decide +kernel

/-- §9.6, 1200 ms: the target becomes 4800 and the ceiling stays. -/
theorem test_curtail_release : after (exec .curtailRelease <| curtailShows false 20
    { inStep base with curtail := { (inStep base).curtail with
        pin := true, localForce := true, set := base.curtail.set.set 2 (some ⟨60, 1⟩), target := 4000, ceiling := 4000 } })
    (fun t => (t.curtail.target, t.curtail.ceiling)) = some (4800, 4000) := by decide

/-- §10.5, tick 21: the send of 680 after 900 restarts the TAPER and steady counts. -/
theorem test_measure_tick_send : after (exec (.measureTickSend 0)
    (at0 (pad0 .charging) fun x => { x with alloc := ⟨680, 680, 680, 680⟩
                                            stage := { x.stage with tpCount := 5, ndSteady := 20 } })) (fun t =>
      (t.ports[0].stage.tick, t.ports[0].stage.tpCount, t.ports[0].stage.ndSteady, t.ports[0].stage.enable))
    = some (680, 0, 0, true) := by decide

/-- §2.2, tick 15: 35,000 and 2,500 take one eu and leave 1,500. -/
theorem test_status_arrival : after (exec (.statusArrival 0 ⟨2500, 700, false⟩)
    (at0 (awaiting (pad0 .charging)) fun x => { x with session := { x.session with energy := 12, acc := 35000 } })) (fun t =>
      (t.ports[0].session.energy, t.ports[0].session.acc)) = some (11, 1500) := by decide

/-- §10.5, tick 20: the twentieth answer of 640 at 900 makes the cap 680 and reports TAPER. -/
theorem test_status_arrival_taper : after (exec (.statusArrival 0 ⟨640, 700, false⟩)
    (at0 (awaiting (pad0 .charging)) fun x => { x with stage := { x.stage with tpCount := 19 } })) (fun t =>
      (t.ports[0].session.cap, t.ports[0].fault.inForce.taper, t.ports[0].session.state))
    = some (some 680, some ⟨.report, true⟩, .charging) := by decide

/-- §10.5, tick 24: the third silent tick raises STAGE_FAULT, and every count restarts. -/
theorem test_no_answer : after (exec (.noAnswer 0)
    (at0 (awaiting (pad0 .charging)) fun x => { x with stage := { x.stage with sfSilence := 2, ndSteady := 1 } })) (fun t =>
      (t.ports[0].session.state, t.ports[0].fault.inForce.stageFault, t.ports[0].stage.sfSilence,
        t.ports[0].stage.ndSteady, t.ports[0].stage.enable))
    = some (.held, some ⟨.latch, true⟩, 0, 0, false) := by decide

/-- §11.5, 5.0 s: the expiry empties the set, counts the retry and releases the pad. -/
theorem test_retry_timer_expiry : after (exec (.retryTimerExpiry 0)
    (withEntry (pad0 .held) .overDraw ⟨.retryShort, false⟩ (some 0) 0)) (fun t =>
      (t.ports[0].fault, t.ports[0].session.state)) = some (⟨InForce.empty, none, 1⟩, .waiting) := by decide

/-- R176: a raise taken first has set the timer again, and the expiry does not happen. -/
theorem test_retry_timer_set_again : after (exec (.retryTimerExpiry 0)
    (withEntry (pad0 .held) .overDraw ⟨.retryShort, true⟩ (some 5000) 0)) (fun t =>
      (t.ports[0].fault.timer, t.ports[0].fault.retries, t.ports[0].session.state)) = some (some 5000, 0, .held) := by decide

/-- Log 1: an idle step at the last millisecond of a round hands over the boundary. -/
theorem test_idle_step :
    let later := Vector.ofFn fun p : Fin 4 => Port.reset (100 * (p.val + 1))
    after (step { base with round := { base.round with phase := 499 }, now := 10, ports := later }) (fun t =>
      (t.pending, t.now, t.round.phase)) = some ([.roundBoundary], 11, 499) := by decide +kernel

/-- The most bytes of a frame's body. As its bound is a fact of its own, this definition waits until the kernel has
checked all that stands before it, and the tests after it do not pile up. -/
def bodyBytes : Fin 256 := ⟨255, by decide +kernel⟩

/-! ### Witnesses: the hypotheses of each statement, and of each of its clauses, are met together -/

/-- The fault records of these states are safe. -/
theorem faults_safe_base : base.FaultsSafe := by
  unfold State.FaultsSafe ResponsesAllowed PadFault.Safe InForce.Legal; decide +kernel
theorem faults_safe_charging : (pad0 .charging).FaultsSafe := by
  unfold State.FaultsSafe ResponsesAllowed PadFault.Safe InForce.Legal; decide +kernel
theorem faults_safe_awaiting : (awaiting (pad0 .charging)).FaultsSafe := by
  unfold State.FaultsSafe ResponsesAllowed PadFault.Safe InForce.Legal; decide +kernel
theorem pads_distinct : PadsDistinct cfgA := by unfold PadsDistinct; decide +kernel

theorem settled_of {s : State} (h : s.engine.wanted = false ∧ s.sup.reports = []) : s.Settled := h

theorem witness_StepTakesTheFrontCommand :
    { base with pending := [.secondMark, .reset] }.pending = .secondMark :: [.reset] := rfl

theorem witness_ExecCompletesOnWellFormedCommands :
    Instr.wellFormed .secondMark = true ∧ Instr.wellFormed (.frameAborted 7) = false := by decide

/-- Each phase of the emptied queue: before, in and after each window of the image read, in CONFIG_FAIL, and the running part
with a notice, with ticks due, and with neither. -/
theorem witness_IdleStepLetsTimePass :
    (State.reset.pending = [] ∧ (starting (.due 1 9) true).pending = [] ∧ (starting (.reading 4 29) false).pending = []
      ∧ (starting (.waiting 3 9) false).pending = [] ∧ (starting .configFail false).pending = [])
    ∧ ((queued claimFrame).pending = [] ∧ (queued claimFrame).boot = .running
      ∧ (queued claimFrame).line.queue.length = 1 ∧ (queued claimFrame).engine.inFlight = none)
    ∧ (base.pending = [] ∧ base.line.queue = [] ∧ base.enabled 0 = true ∧ base.ports[0].stage.nextTick ≤ base.now)
    ∧ ((noTick base).pending = [] ∧ (noTick base).boot = .running
      ∧ ∀ p : PortId, base.now < (noTick base).ports[p].stage.nextTick) := by decide

theorem witness_ResetAndStartupReads :
    (starting (.due 4 9) true).boot = .due 4 9 ∧ ReadFailure.timedOut ≠ .busHeldLow
      ∧ (State.reset.boot = .held ∧ 2850 ≤ State.reset.pins.supply ∧ State.reset.resetHold = 0
        ∧ State.reset.pins.resetLead = 0)
      ∧ { State.reset with boot := .reading 3 29 }.boot = .reading 3 29
      ∧ { State.reset with boot := .reading 4 0 }.boot = .reading 4 0
      ∧ { State.reset with boot := .waiting 1 9 }.boot = .waiting 1 9 := 
  ⟨rfl, by decide, by decide, rfl, rfl, rfl⟩

theorem witness_ImageChecksDecideStartup :
    (readingA 5).boot = .reading 2 12 ∧ imageA.length = 128 ∧ imageGood imageA 5 = true
      ∧ (readingA 8).boot = .reading 2 12 ∧ imageGood imageA 8 = false :=
  ⟨rfl, by decide +kernel, test_image_passes_its_checks, rfl, test_node_id_at_n_cfg_fails⟩

theorem witness_StartupCompletionStartsEveryBlock :
    (readingA 5).boot = .reading 2 12 ∧ imageA.length = 128 ∧ imageGood imageA (readingA 5).nodeId = true :=
  ⟨rfl, by decide +kernel, test_image_passes_its_checks⟩

/-- The last clause, at both ends of the range of N_cfg. -/
theorem witness_ImageFieldsAreClamped :
    1 ≤ (imageByte [0, 0, 0, 1] 3).toNat ∧ (imageByte [0, 0, 0, 1] 3).toNat ≤ 16
      ∧ 1 ≤ (imageByte [0, 0, 0, 16] 3).toNat ∧ (imageByte [0, 0, 0, 16] 3).toNat ≤ 16 := by decide

theorem witness_PresenceEdgesMoveThePad :
    (let s := shows 1 50 base
     s.boot = .running ∧ s.enabled 0 = true ∧ s.ports[0].level = false ∧ s.pins.presence.getLsbD 0 = true
      ∧ 50 ≤ s.ports[0].change)
    ∧ (∀ x ∈ [pad0 .charging, arrived],
       let s := shows 0 50 x
       s.Settled ∧ s.boot = .running ∧ s.enabled 0 = true ∧ s.ports[0].level = true
        ∧ s.pins.presence.getLsbD 0 = false ∧ 50 ≤ s.ports[0].change)
    ∧ (shows 1 49 base).ports[0].change < 50 ∧ (shows 0 50 base).pins.presence.getLsbD 0 ≠ true
    ∧ State.reset.enabled 0 = false ∧ base.ports[0].level = false ∧ State.reset.boot ≠ .running := by
  unfold State.Settled; decide

theorem witness_MalformedRecordsAreCountedAndRepliesLeave :
    (base.boot = .running ∧ base.enabled 3 = true)
    ∧ (let replying (s : State) : State := at0 s fun x => { x with link := ⟨some (⟨0, .arrived, 0, 0, .ok⟩, 20), none⟩ }
       (replying base).ports[0].link.reply = some (⟨0, .arrived, 0, 0, .ok⟩, 20) ∧ (replying base).boot = .running
        ∧ (replying base).enabled 0 = true ∧ (replying (starting .configFail false)).ports[0].link.reply.isSome = true
        ∧ (4 : Byte) ≠ 1 ∧ (4 : Byte) ≠ 2 ∧ (4 : Byte) ≠ 3) := by decide

/-- Each of the four kinds of refused record: a DOCK of class 4 or without power, an UPDATE without a session or to no
power, a DEPART without a session or of another vehicle, and an unknown kind. -/
theorem witness_BadRequestOnlyRestartsTheWatch :
    (base.Settled ∧ base.FaultsSafe ∧ base.boot = .running ∧ base.ports[0].link.reply = none
      ∧ cfgA.portMap[0] = some 0
      ∧ BadRequest base.ports[0].session 0 (.dock 0 { dockA with cls := 4 })
      ∧ BadRequest base.ports[0].session 0 (.dock 0 { dockA with maxPower := 0 })
      ∧ BadRequest base.ports[0].session 0 (.update 0 ⟨1, none, none⟩)
      ∧ BadRequest base.ports[0].session 0 (.depart 0 1)
      ∧ BadRequest base.ports[0].session 0 (.unknownKindRecord 0 4))
    ∧ ((pad0 .charging).Settled ∧ (pad0 .charging).FaultsSafe ∧ (pad0 .charging).boot = .running
      ∧ (pad0 .charging).ports[0].link.reply = none
      ∧ BadRequest (pad0 .charging).ports[0].session 0 (.update 0 ⟨1, none, some 0⟩)
      ∧ BadRequest (pad0 .charging).ports[0].session 0 (.depart 0 40212)) :=
  ⟨⟨⟨rfl, rfl⟩, faults_safe_base, rfl, by decide, by decide, .inl ⟨_, rfl, by decide⟩, .inl ⟨_, rfl, by decide⟩,
    .inr (.inl ⟨_, rfl, by decide⟩), .inr (.inr (.inl ⟨_, rfl, by decide⟩)), .inr (.inr (.inr ⟨_, rfl, by decide⟩))⟩,
   ⟨⟨rfl, rfl⟩, faults_safe_charging, rfl, by decide, .inr (.inl ⟨_, rfl, by decide⟩),
    .inr (.inr (.inl ⟨_, rfl, by decide⟩))⟩⟩

/-- A DOCK of class 3 with 1 pu at a VACANT pad, at an OFFLINE pad, at an ARRIVED pad with a stage-origin LATCH, and at an
ARRIVED pad without one, held and not. -/
theorem witness_DockAtAPadWithoutSessionIsJudged :
    let r : DockRecord := { dockA with cls := 3, maxPower := 1 }
    (r.cls.toNat ≤ 3 ∧ r.maxPower ≠ 0)
    ∧ (base.engine.wanted = false ∧ base.sup.reports = [] ∧ base.boot = .running ∧ base.ports[0].link.reply = none
      ∧ cfgA.portMap[0] = some 0 ∧ base.ports[0].session.state = .vacant)
    ∧ ((pad0 .offline).ports[0].session.state = .offline ∧ (pad0 .offline).boot = .running
      ∧ (pad0 .offline).ports[0].link.reply = none)
    ∧ (let s := withEntry arrived .busHigh ⟨.latch, false⟩ none 0
       s.boot = .running ∧ s.ports[0].link.reply = none ∧ s.ports[0].session.state = .arrived
       ∧ s.ports[0].fault.inForce.get .busHigh = some ⟨.latch, false⟩)
    ∧ (arrived.boot = .running ∧ arrived.ports[0].link.reply = none ∧ arrived.ports[0].session.state = .arrived
      ∧ arrived.ports[0].fault.inForce.stageLatched = false ∧ arrived.ports[0].fault.held = false)
    ∧ (let s := withEntry arrived .busLow ⟨.holdWhile, true⟩ none 0
       s.boot = .running ∧ s.ports[0].link.reply = none ∧ s.ports[0].session.state = .arrived
       ∧ s.ports[0].fault.inForce.stageLatched = false ∧ s.ports[0].fault.held = true) := by decide

theorem witness_DockAndUpdateRewriteTheSession :
    let s := pad0 .charging
    s.Settled ∧ s.FaultsSafe ∧ s.boot = .running ∧ s.ports[0].link.reply = none
      ∧ s.ports[0].session.state.admitted = true ∧ s.ports[0].session.vehicle = dockA.vehicle
      ∧ dockA.cls.toNat ≤ 3 ∧ dockA.maxPower ≠ 0 ∧ cfgA.portMap[0] = some 0
      ∧ (some 1 : Option Word16) ≠ some 0 ∧ (none : Option Word16) ≠ some 0 :=
  ⟨⟨rfl, rfl⟩, faults_safe_charging, rfl, by decide, by decide, by decide, by decide, by decide, by decide, by decide,
   by decide⟩

/-- The DOCK of another vehicle at a pad without and with a stage-origin LATCH in force. -/
theorem witness_DepartAndAnotherVehicleEndTheSession :
    (let s := pad0 .charging
     s.Settled ∧ s.FaultsSafe ∧ s.boot = .running ∧ s.ports[0].link.reply = none
      ∧ s.ports[0].session.state.admitted = true ∧ s.ports[0].session.vehicle = 40211
      ∧ s.ports[0].session.vehicle ≠ 40212 ∧ cfgA.portMap[0] = some 0
      ∧ s.ports[0].fault.inForce.stageLatched = false)
    ∧ (let s := withEntry (pad0 .held) .stageFault ⟨.latch, true⟩ none 0
       s.Settled ∧ s.FaultsSafe ∧ s.boot = .running ∧ s.ports[0].link.reply = none
        ∧ s.ports[0].session.state.admitted = true ∧ s.ports[0].session.vehicle ≠ 40212
        ∧ s.ports[0].fault.inForce.stageLatched = true) :=
  ⟨⟨⟨rfl, rfl⟩, faults_safe_charging, rfl, by decide, by decide, by decide, by decide, by decide, by decide⟩,
   ⟨⟨rfl, rfl⟩, by unfold State.FaultsSafe ResponsesAllowed PadFault.Safe InForce.Legal; decide +kernel, rfl, by decide,
    by decide, by decide, by decide⟩⟩

theorem witness_ConfigFailAnswersEveryRecord :
    let s := { State.reset with boot := .configFail }
    s.boot = .configFail ∧ s.ports[3].link.reply = none
      ∧ ((∃ r : DockRecord, Instr.dock 3 dockA = .dock 3 r) ∧ Reason.fault = .fault)
      ∧ ((∃ r : UpdateRecord, Instr.update 3 ⟨1, none, none⟩ = .update 3 r) ∧ Reason.badRequest = .badRequest)
      ∧ ((∃ v : BitVec 32, Instr.depart 3 1 = .depart 3 v) ∧ Reason.badRequest = .badRequest)
      ∧ (∃ k : Byte, Instr.unknownKindRecord 3 4 = .unknownKindRecord 3 k ∧ k ≠ 1 ∧ k ≠ 2 ∧ k ≠ 3)
      ∧ Instr.recordInConfigFail 3 1 = .recordInConfigFail 3 1
      ∧ ∃ k : Byte, Instr.recordInConfigFail 3 0 = .recordInConfigFail 3 k ∧ k ≠ 1 :=
  ⟨rfl, by decide, ⟨⟨_, rfl⟩, rfl⟩, ⟨⟨_, rfl⟩, rfl⟩, ⟨⟨_, rfl⟩, rfl⟩, ⟨_, rfl, by decide⟩, rfl, ⟨_, rfl, by decide⟩⟩

/-- With the response LATCH; with RETRY_SHORT and no retry, and with three. -/
theorem witness_ContactLossIsRaisedUnderItsResponse :
    (let s := pad0 .charging
     s.Settled ∧ s.FaultsSafe ∧ s.boot = .running ∧ s.enabled 0 = true ∧ s.ports[0].session.state.admitted = true
      ∧ s.cfg.responses.contactLoss = .latch)
    ∧ ∀ n : Fin 4,
       let s := { at0 (pad0 .charging) fun x => { x with fault := { x.fault with retries := n.val } } with
         cfg := { cfgA with responses := { ResponseTable.defaults with contactLoss := .retryShort } } }
       s.Settled ∧ s.FaultsSafe ∧ s.boot = .running ∧ s.enabled 0 = true ∧ s.ports[0].session.state.admitted = true :=
  ⟨⟨⟨rfl, rfl⟩, faults_safe_charging, rfl, by decide, by decide, by decide⟩,
   by unfold State.Settled State.FaultsSafe ResponsesAllowed PadFault.Safe InForce.Legal; decide +kernel⟩

/-- A retry response with two retries and with three; with and without a LATCH in force. -/
theorem witness_RaisesAndClearsFollowTheResponse :
    (let f : PadFault := ⟨InForce.empty, none, 2⟩
     ¬ 3 ≤ f.retries ∧ ¬ ∃ k ∈ allConds, ∃ x ∈ (f.raise .overDraw .retryShort).inForce.get k, x.response = .latch)
    ∧ (3 ≤ (⟨InForce.empty, some 1, 3⟩ : PadFault).retries)
    ∧ (let f : PadFault := ⟨InForce.empty.put .stageFault (some ⟨.latch, true⟩), none, 0⟩
       ∃ k ∈ allConds, ∃ x ∈ (f.raise .overDraw .retryShort).inForce.get k, x.response = .latch) := by decide

theorem witness_SecondMarkCountsDown : (pad0 .charging).boot = .running := rfl

/-- Each case of R32 with P_max 1: no deadline, T 0, T 1. -/
theorem witness_UrgencyIsByTheFirstCase :
    1 ≤ 1 ∧ ((none : Option Nat) = none) ∧ (some 0 : Option Nat) = some 0 ∧ 0 < 1 ∧ (1 : Nat) ∈ (some 1 : Option Nat) := by
  decide

/-- A foreign frame, and a qualifying one in HUNT, in TRIAL at 1 and in TRIAL at 3, at both ends of the age's range. -/
theorem witness_GoodFramesBringTheLineInStep :
    (claimFrame.wellFormed = true ∧ 0 ≤ maxFrameAge ∧ 6 ≤ maxFrameAge)
    ∧ (base.engine.wanted = false ∧ base.sup.reports = [] ∧ base.boot = .running ∧ base.tx.onLine = none
      ∧ claimFrame.sender.toNat ≠ base.nodeId.val ∧ claimFrame.feeder.toNat = base.cfg.feederId
      ∧ base.line.acq = .hunt)
    ∧ ({ claimFrame with feeder := 8 }.feeder.toNat ≠ base.cfg.feederId ∧ { claimFrame with feeder := 8 }.feeder ≠ 0xFF)
    ∧ { claimFrame with feeder := 8, sender := 1 }.sender.toNat = base.nodeId.val
    ∧ ((trial 1).boot = .running ∧ (trial 1).line.acq = .trial ∧ (trial 1).line.trial < 3
      ∧ (trial 1).tx.onLine = none)
    ∧ ((trial 3).boot = .running ∧ (trial 3).line.acq = .trial ∧ 3 ≤ (trial 3).line.trial
      ∧ (trial 3).tx.onLine = none) := by decide

/-- With two entries and with three. -/
theorem witness_QualifyingFramesAreQueuedInStep :
    (claimFrame.wellFormed = true ∧ 0 ≤ maxFrameAge ∧ claimFrame.feeder.toNat = 7)
    ∧ ∀ n : Fin 2,
       let s := { inStep base with line := { (inStep base).line with
         queue := List.replicate (n.val + 2) ⟨claimFrame, false, ⟨1, 0⟩⟩ } }
       s.engine.wanted = false ∧ s.sup.reports = [] ∧ s.boot = .running ∧ s.tx.onLine = none ∧ s.line.acq = .inStep
         ∧ claimFrame.sender.toNat ≠ s.nodeId.val ∧ s.cfg.feederId = 7 := by decide

theorem witness_EntryStateIsTheFirstThatApplies :
    { base with peers := base.peers.set 2 (live 40) }.PeersKept := by
  unfold State.PeersKept; decide +kernel

/-- In SOLO, in HUNT, in TRIAL at 1 and at 3, and in step; COORDINATED without and with a compute in flight. -/
theorem witness_OwnIdFrameLatchesDuplicateId :
    ({ claimFrame with sender := 1 }.wellFormed = true ∧ 6 ≤ maxFrameAge
      ∧ { claimFrame with sender := 1 }.sender.toNat = base.nodeId.val ∧ claimFrame.feeder.toNat = base.cfg.feederId)
    ∧ (base.engine.wanted = false ∧ base.sup.reports = [] ∧ base.boot = .running ∧ base.tx.onLine = none
      ∧ base.curtail.mode = .solo ∧ base.line.acq = .hunt)
    ∧ ((trial 1).line.acq = .trial ∧ (trial 1).line.trial < 3 ∧ (trial 3).line.acq = .trial ∧ 3 ≤ (trial 3).line.trial)
    ∧ (let s := inStep base
       s.engine.wanted = false ∧ s.sup.reports = [] ∧ s.boot = .running ∧ s.tx.onLine = none ∧ s.line.acq = .inStep
        ∧ s.curtail.mode = .coordinated ∧ s.engine.inFlight = none ∧ s.nodeId = 1)
    ∧ (node1.engine.wanted = false ∧ node1.sup.reports = [] ∧ node1.boot = .running ∧ node1.tx.onLine = none
      ∧ node1.curtail.mode = .coordinated ∧ node1.engine.inFlight.isSome = true ∧ node1.nodeId = 1) := by decide

/-- In HUNT, in TRIAL, in step with the monitor at 14 and at 15, with and without a compute in flight. -/
theorem witness_BadAndAbortedFramesAreJudged :
    (6 ≤ maxFrameAge ∧ base.engine.wanted = false ∧ base.sup.reports = [] ∧ base.boot = .running
      ∧ base.tx.onLine = none ∧ base.line.acq = .hunt)
    ∧ ((trial 1).boot = .running ∧ (trial 1).tx.onLine = none ∧ (trial 1).line.acq = .trial
      ∧ (trial 1).engine.inFlight = none)
    ∧ (let s := { inStep base with line := { (inStep base).line with errors := 14 } }
       s.boot = .running ∧ s.tx.onLine = none ∧ s.line.acq = .inStep ∧ s.line.errors < 15)
    ∧ (let s := { inStep base with line := { (inStep base).line with errors := 15 } }
       s.engine.wanted = false ∧ s.sup.reports = [] ∧ s.boot = .running ∧ s.line.acq = .inStep ∧ 15 ≤ s.line.errors
        ∧ s.curtail.mode = .coordinated ∧ s.engine.inFlight = none ∧ base.curtail.mode = .solo)
    ∧ (let s := { node1 with line := { node1.line with errors := 15 } }
       s.engine.wanted = false ∧ s.sup.reports = [] ∧ s.boot = .running ∧ s.tx.onLine = none ∧ s.line.acq = .inStep
        ∧ 15 ≤ s.line.errors ∧ s.engine.inFlight.isSome = true) := by decide

/-- A CLAIM whose sender is 16; each kind of frame that no check passes, with each kind's body too long, at the first value
outside a range, with a pad twice and with an ask below its floor; a directive for node 2. -/
theorem witness_RejectedNoticesAreOnlyCounted :
    (let q := queued { claimFrame with sender := 16 }
     q.boot = .running ∧ q.engine.inFlight = none
      ∧ (q.line.queue.head?).map (fun x => checkNotice x.notice) = some none)
    ∧ (({ claimFrame with kind := 0x15 } : Frame).kind ≠ 0x11 ∧ ({ claimFrame with sender := 16 } : Frame).kind ≠ 0x21
      ∧ 16 ≤ ({ claimFrame with sender := 16 } : Frame).sender.toNat
      ∧ ({ claimFrame with feeder := 0xFF } : Frame).feeder = 0xFF
      ∧ (directiveFrame 1 1).kind = 0x21 ∧ ({ directiveFrame 1 1 with sender := 15 } : Frame).sender.toNat < 16
      ∧ 31 < ({ directiveFrame 1 1 with sender := 32 } : Frame).sender.toNat)
    ∧ (let b (f : Frame) (i : Nat) : Nat := (f.body.getD i 0).toNat
       let w (f : Frame) (i : Nat) : Nat := b f i * 256 + b f (i + 1)
       let e (pad floor : Nat) : ClaimEntry := ⟨Fin.ofNat 4 pad, 0, 0, false, false, false, floor, 10, 0, 4001⟩
       let twice : Frame := ⟨0x11, 2, 7, Claim.bytes ⟨.solo, false, 750, 16001, [e 1 11, e 1 0]⟩⟩
       let status : Frame := { statusFrame with body := List.replicate 38 0xFF }
       (claimFrame.body ++ [0]).length ≠ 6 + 10 * b claimFrame 5 ∧ 749 < w twice 1 ∧ 16000 < w twice 3
        ∧ b twice 5 = 2 ∧ b twice 6 % 4 = b twice 16 % 4 ∧ w twice 10 < w twice 8 ∧ 4000 < w twice 14
        ∧ 6 < b status 1 ∧ b status 7 % 8 = 7 ∧ 3 < b status 11 ∧ (announceFrame.body ++ [0]).length ≠ 8
        ∧ b (directiveFrame 16 4) 0 = 16 ∧ 3 < b (directiveFrame 16 4) 1)
    ∧ ∀ a ∈ [(1, Action.clear), (2, .padOffline), (3, .padOnline)],
       let q := queued (directiveFrame 2 a.1)
       q.boot = .running ∧ q.engine.inFlight = none ∧ (directive 2 a.2).target ≠ q.nodeId.val
        ∧ (directive 2 a.2).target ≠ 31
        ∧ (q.line.queue.head?).map (fun x => checkNotice x.notice) = some (some (.directive (directive 2 a.2))) := by
  decide

theorem witness_DrainedNoticesWriteTheirSendersEntry :
    (let s := queued claimFrame
     s.engine.wanted = false ∧ s.sup.reports = [] ∧ s.boot = .running ∧ s.engine.inFlight = none
      ∧ (s.line.queue.head?).map (fun x => checkNotice x.notice) = some (some (.claim 2 claimA))
      ∧ (s.line.queue.head?).map (fun x => x.stamp.phase) = some 40 ∧ (2 : NodeId) ≠ s.nodeId)
    ∧ (let s := queued announceFrame
     s.engine.wanted = false ∧ s.sup.reports = [] ∧ s.boot = .running ∧ s.engine.inFlight = none
      ∧ (s.line.queue.head?).map (fun x => checkNotice x.notice)
        = some (some (.announce 2 ⟨7000, 400, 4, 50, .monitor, false, 3⟩)) ∧ (2 : NodeId) ≠ s.nodeId)
    ∧ (let s := queued statusFrame
       s.engine.wanted = false ∧ s.sup.reports = [] ∧ s.boot = .running ∧ s.engine.inFlight = none
        ∧ (s.line.queue.head?).map (fun x => checkNotice x.notice) = some (some (.status 2 true))
        ∧ (2 : NodeId) ≠ s.nodeId) := by decide

/-- No curtailment in force, local curtail, and an entry of the set. -/
theorem witness_ReserveLimitAndPercentFollowTheirTables :
    (base.curtail.localForce = false ∧ ∀ id : NodeId, base.curtail.set[id] = none)
    ∧ { base with curtail := { base.curtail with localForce := true } }.curtail.localForce = true
    ∧ { base with curtail := { base.curtail with set := base.curtail.set.set 15 (some ⟨10, 2⟩) } }.curtail.set[15]
      = some ⟨10, 2⟩ := by decide

theorem witness_DrainedCurtailMovesTheCeiling :
    let s := queued curtailFrame
    s.engine.wanted = false ∧ s.sup.reports = [] ∧ s.boot = .running ∧ s.engine.inFlight = none
      ∧ (s.line.queue.head?).map (fun x => checkNotice x.notice) = some (some (.curtail 2 ⟨true, 60⟩)) := by decide

/-- The own directive of each action is at the front of the queue. -/
theorem own_directive (a : Action) (b : Byte) (h : checkNotice (directiveFrame 1 b) = some (.directive (directive 1 a))) :
    (escalated b).OwnDirective (directive 1 a) :=
  ⟨rfl, rfl, .inl rfl, ⟨_, rfl, h⟩⟩

theorem witness_ClearDirectiveClearsTheNamedPads :
    (escalated 1).Settled ∧ (escalated 1).FaultsSafe ∧ PadsDistinct (escalated 1).cfg
      ∧ (escalated 1).OwnDirective (directive 1 .clear) ∧ (directive 1 .clear).action = .clear
      ∧ (escalated 1).Names (directive 1 .clear) 0 ∧ ¬ (escalated 1).Names (directive 1 .clear) 1 :=
  ⟨⟨rfl, rfl⟩, by unfold State.FaultsSafe ResponsesAllowed PadFault.Safe InForce.Legal; decide +kernel, pads_distinct,
   own_directive .clear 1 (by decide +kernel), rfl, by unfold State.Names; decide +kernel,
   by unfold State.Names; decide +kernel⟩

theorem witness_OfflineAndOnlineMoveTheNamedPads :
    ((escalated 2).Settled ∧ PadsDistinct (escalated 2).cfg ∧ (escalated 2).OwnDirective (directive 1 .padOffline)
      ∧ (escalated 2).Names (directive 1 .padOffline) 0)
    ∧ (PadsDistinct (escalated 3).cfg ∧ (escalated 3).OwnDirective (directive 1 .padOnline)) :=
  ⟨⟨⟨rfl, rfl⟩, pads_distinct, own_directive .padOffline 2 (by decide +kernel), by unfold State.Names; decide +kernel⟩,
   pads_distinct, own_directive .padOnline 3 (by decide +kernel)⟩

/-- The clauses of both modes, of an enabled and of a disabled port. -/
theorem witness_ComputeStartTakesTheSnapshot :
    (pad0 .charging).enabled 0 = true ∧ State.reset.enabled 0 = false ∧ (inStep base).curtail.mode = .coordinated
      ∧ base.curtail.mode = .solo ∧ PadsDistinct base.cfg :=
  ⟨by decide, by decide, rfl, rfl, pads_distinct⟩

theorem witness_RankListIsInRankOrder : base.curtail.mode = .solo ∧ (inStep base).curtail.mode = .coordinated :=
  ⟨rfl, rfl⟩

/-- At the last entry of the Rank List of §8.10, at an own entry that the cut takes whole, and in both modes. -/
theorem witness_GrantsFollowThePassesAndTheOverhang :
    round60.ranks[4]? = some ⟨0, false, 1, 1, 40, 0, 1200, 0, 0, false⟩
      ∧ (floorPass 5700 round60.ranks).1[4]? = some ⟨0, false, 1, 1, 40, 0, 1200, 0, 0, false⟩
      ∧ (let e : Ranked := ⟨1, true, 2, 1, 200, 400, 1000, 0, 400, false⟩
         [e][0]? = some e ∧ (cutWalk 100 [e])[0]? = some { e with grant := 0 })
      ∧ round60.mode = .coordinated ∧ { round60 with mode := .solo }.mode = .solo := by decide

/-- With no remembered mark, with a remembered boundary and with a remembered request, with and without table changes that
wait; for a disabled port too. -/
theorem witness_CompletionWritesTheResults :
    (node1.engine.wanted = false ∧ node1.sup.reports = [] ∧ node1.boot = .running
      ∧ node1.engine.inFlight = some round60 ∧ node1.engine.boundary = false ∧ node1.engine.request = false
      ∧ cfgA.portMap[0] = some 0)
    ∧ (let s := { node1 with engine := { node1.engine with boundary := true, agePending := true, huntPending := true } }
       s.engine.boundary = true ∧ s.engine.agePending = true ∧ s.engine.huntPending = true)
    ∧ { node1 with engine := { node1.engine with request := true } }.engine.request = true
    ∧ { node1 with cfg := { cfgA with portMap := #v[none, some 1, some 2, some 3] } }.enabled 0 = false := by decide

theorem witness_SetpointsStayWithinTheBudget :
    node1.boot = .running ∧ PadsDistinct node1.cfg ∧ node1.engine.inFlight = some round60 := ⟨rfl, pads_distinct, rfl⟩

theorem witness_AttemptTakesTheHighestNotice : base.boot = .running ∧ base.tx.onLine = none := by decide

/-- The contents of a STATUS. -/
def statusA (periodic : Bool) : Status := base.statusMsg periodic Health.start

theorem witness_SentNoticesReachTheirOwners :
    (let s := sending base (.routine (.claim claimA) 3) false
     s.engine.wanted = false ∧ s.sup.reports = [] ∧ s.boot = .running ∧ (claimA.entries.map ClaimEntry.pad).Nodup
      ∧ PadsDistinct s.cfg ∧ s.tx.onLine = some (.routine (.claim claimA) 3, false))
    ∧ (base.engine.wanted = false ∧ base.sup.reports = [] ∧ base.boot = .running)
    ∧ (let s := { sending base .urgent false with tx := { (sending base .urgent false).tx with urgent := [(⟨true, 50⟩, 0)] } }
       s.tx.onLine = some (.urgent, false) ∧ s.tx.urgent = [(⟨true, 50⟩, 0)])
    ∧ (sending base (.routine (.announce base.announceMsg) 0) false).tx.onLine
      = some (.routine (.announce base.announceMsg) 0, false)
    ∧ (statusA true).periodic = true ∧ (statusA false).periodic = false
    ∧ base.sup.current = base.sup.recorded ∧ (inStep base).sup.current ≠ base.sup.recorded :=
  ⟨⟨rfl, rfl, rfl, by decide, pads_distinct, rfl⟩, ⟨rfl, rfl, rfl⟩, ⟨rfl, rfl⟩, rfl, rfl, rfl, rfl, by decide⟩

/-- At the third collision and at the fourth, of a ROUTINE and of an URGENT notice. -/
theorem witness_CollisionsBackOffAndDrop :
    (∀ k : Fin 4, (sending base (.routine (.claim claimA) k.val) true).tx.onLine
      = some (.routine (.claim claimA) k.val, true))
    ∧ (base.engine.wanted = false ∧ base.sup.reports = [] ∧ base.boot = .running)
    ∧ (sending base .urgent false).tx.onLine = some (.urgent, false)
    ∧ ∀ k : Fin 4,
       let s := { sending base .urgent true with
         tx := { (sending base .urgent true).tx with urgent := [(⟨true, 50⟩, k.val)] } }
       s.tx.onLine = some (.urgent, true) ∧ s.tx.urgent = [(⟨true, 50⟩, k.val)] :=
  ⟨fun _ => rfl, ⟨rfl, rfl, rfl⟩, rfl, fun _ => ⟨rfl, rfl⟩⟩

theorem witness_CurtailPinEdgesMoveTheCeiling :
    (∀ x ∈ [base, node1],
       let s := curtailShows true 20 x
       s.engine.wanted = false ∧ s.sup.reports = [] ∧ s.boot = .running ∧ s.curtail.pin = false ∧ s.pins.curtail = true
        ∧ 20 ≤ s.curtail.hold)
    ∧ base.engine.inFlight = none ∧ node1.engine.inFlight.isSome = true
    ∧ (let s := curtailShows false 20 { base with curtail := { base.curtail with pin := true } }
       s.curtail.pin = true ∧ s.pins.curtail = false ∧ 20 ≤ s.curtail.hold)
    ∧ (curtailShows true 19 base).curtail.hold < 20 ∧ State.reset.boot ≠ .running
    ∧ (curtailShows false 20 base).pins.curtail ≠ true := by decide

theorem witness_BoundarySetsTheNextRound : base.boot = .running := rfl

/-- With and without a compute in flight. -/
theorem witness_BoundaryDoesEachBlocksWork :
    (base.Settled ∧ base.ModeFollows ∧ base.boot = .running
      ∧ ¬ (1 < base.cfg.nCfg ∧ base.line.acq ≠ .hunt ∧ base.line.heard = false ∧ 3 ≤ base.line.silence)
      ∧ base.engine.inFlight = none)
    ∧ (node1.Settled ∧ node1.ModeFollows ∧ node1.boot = .running
      ∧ ¬ (1 < node1.cfg.nCfg ∧ node1.line.acq ≠ .hunt ∧ node1.line.heard = false ∧ 3 ≤ node1.line.silence)
      ∧ node1.engine.inFlight.isSome = true) := by
  unfold State.Settled State.ModeFollows; decide

/-- COORDINATED, without and with a compute in flight. -/
theorem witness_SilenceDropsTheLine :
    let drop (s : State) : State := { s with line := { s.line with heard := false, silence := 3 } }
    (let s := drop (inStep base)
     s.engine.wanted = false ∧ s.sup.reports = [] ∧ s.boot = .running ∧ 1 < s.cfg.nCfg ∧ s.line.acq ≠ .hunt
      ∧ s.line.heard = false ∧ s.line.silence = 3 ∧ s.engine.inFlight = none ∧ s.curtail.mode = .coordinated)
    ∧ (let s := drop node1
       s.engine.wanted = false ∧ s.sup.reports = [] ∧ s.boot = .running ∧ 1 < s.cfg.nCfg ∧ s.line.acq ≠ .hunt
        ∧ s.line.heard = false ∧ s.line.silence = 3 ∧ s.engine.inFlight.isSome = true) := by decide

/-- With a free and with a latched snapshot, a latch-STATUS outstanding or not, at the periodic counts 14 and 15. -/
theorem witness_BoundaryPlacesTheStatus :
    base.engine.wanted = false ∧ base.sup.reports = [] ∧ base.boot = .running ∧ base.sup.latched = false
      ∧ { base with sup := { base.sup with latched := true } }.sup.outstanding = false
      ∧ { base with sup := { base.sup with latched := true, outstanding := true } }.sup.outstanding = true
      ∧ { base with sup := { base.sup with periodic := 14 } }.sup.periodic < 15
      ∧ 15 ≤ { base with sup := { base.sup with periodic := 15 } }.sup.periodic := by decide

/-- A free and a latched snapshot, and an event that changes a condition: the fourth good frame. -/
theorem witness_HealthChangesLatchTheSnapshot :
    (Instr.frameGood claimFrame 1).wellFormed = true ∧ (trial 3).SnapshotFollows ∧ (trial 3).boot = .running
      ∧ (trial 3).sup.latched = false
      ∧ after (exec (.frameGood claimFrame 1) (trial 3)) (fun t => (t.sup.latched, t.sup.current.lineInStep))
        = some (true, true)
      ∧ { base with sup := { base.sup with latched := true, outstanding := true } }.SnapshotFollows := by
  unfold State.SnapshotFollows State.Settled; decide

theorem witness_MeasureTickSendsTheCommand : base.boot = .running ∧ base.enabled 3 = true := by decide

/-- With neither raise nor clear; a tick that raises OVER_DRAW; a tick that clears BUS_LOW. -/
theorem witness_StatusArrivalAccountsTheEnergy :
    (let s := awaiting (pad0 .charging)
     s.Settled ∧ s.FaultsSafe ∧ s.boot = .running ∧ s.enabled 0 = true ∧ s.ports[0].stage.awaiting.isSome = true)
    ∧ (let g := { (awaiting (pad0 .charging)).ports[0].stage with odCount := 2 }
       (judgeTick cfgA true 0 1400 700 false g).raises = [.overDraw] ∧ (judgeTick cfgA true 0 1400 700 false g).clears = []
        ∧ holding (cfgA.responses.of .overDraw) = true)
    ∧ (let g := { (awaiting (pad0 .charging)).ports[0].stage with busLow := true }
       (judgeTick cfgA true 0 900 700 false g).raises = [] ∧ (judgeTick cfgA true 0 900 700 false g).clears = [.busLow]) :=
  ⟨⟨⟨rfl, rfl⟩, faults_safe_awaiting, rfl, by decide, by decide⟩, by decide, by decide⟩

/-- One silent tick, and the third. -/
theorem witness_SilentTickOnlyCountsSilence :
    (let s := awaiting (pad0 .charging)
     s.Settled ∧ s.FaultsSafe ∧ s.boot = .running ∧ s.enabled 0 = true ∧ s.ports[0].stage.awaiting.isSome = true
      ∧ s.ports[0].stage.sfSilence = 0)
    ∧ (let s := at0 (awaiting (pad0 .charging)) fun x => { x with stage := { x.stage with sfSilence := 2 } }
       s.Settled ∧ s.FaultsSafe ∧ s.boot = .running ∧ s.enabled 0 = true ∧ s.ports[0].stage.awaiting.isSome = true
        ∧ s.ports[0].stage.sfPresent = false ∧ min 3 (s.ports[0].stage.sfSilence + 1) = 3) :=
  ⟨⟨⟨rfl, rfl⟩, faults_safe_awaiting, rfl, by decide, by decide, by decide⟩,
   ⟨rfl, rfl⟩, by unfold State.FaultsSafe ResponsesAllowed PadFault.Safe InForce.Legal; decide +kernel, rfl, by decide,
   by decide, by decide, by decide⟩

theorem witness_RetryExpiryReleasesThePad :
    (let s := withEntry (pad0 .held) .overDraw ⟨.retryShort, false⟩ (some 0) 3
     s.Settled ∧ s.boot = .running ∧ s.enabled 0 = true ∧ s.ports[0].fault.timer = some 0)
    ∧ (withEntry (pad0 .held) .overDraw ⟨.retryShort, false⟩ (some 1) 3).ports[0].fault.timer ≠ some 0 := by
  unfold State.Settled; decide

/-- Each kind of notice at the ends of its ranges. -/
theorem witness_NoticesAreReadBackAsSent :
    (let c : Claim := ⟨.solo, true, 749, 16000, [⟨0, 3, 255, true, true, true, 65535, 65535, 65535, 4000⟩]⟩
     c.phase ≤ 749 ∧ c.draw ≤ 16000 ∧ c.entries.length ≤ 4 ∧ (c.entries.map ClaimEntry.pad).Nodup
      ∧ ∀ e ∈ c.entries, e.cls ≤ 3 ∧ e.urgency ≤ 255 ∧ e.floor ≤ e.ask ∧ e.ask ≤ 65535 ∧ e.intent ≤ 65535
        ∧ e.measured ≤ 4000)
    ∧ (let a : Announce := ⟨65000, 16250, 16, 100, .monitor, true, 4⟩
       100 ≤ a.lCfg ∧ a.lCfg ≤ 65000 ∧ a.guard ≤ a.lCfg / 4 ∧ 1 ≤ a.nCfg ∧ a.nCfg ≤ 16 ∧ 10 ≤ a.pc ∧ a.pc ≤ 100
        ∧ a.inService ≤ 4)
    ∧ (let m : Status := { statusA true with mean := some (-250) }
       (∀ e ∈ m.mean, -250 ≤ e ∧ e ≤ 249) ∧ ∀ i : PadId, ∀ x ∈ m.pads[i], x.retries ≤ 3)
    ∧ (10 ≤ (⟨true, 10⟩ : Curtail).percent ∧ (⟨false, 100⟩ : Curtail).percent ≤ 100)
    ∧ (directive 15 .clear).target ≤ 15 ∧ (directive 31 .clear).target = 31 := by decide +kernel

/-- The empty body, and one of 255 bytes; stops in the seventh zero, in the closing 1, in the last bit before the end sequence
and in the last bit but one. -/
theorem witness_FramesAreHeardAsSent :
    Frame.wellFormed ⟨0, 0, 0, []⟩ = true ∧ Frame.wellFormed ⟨0xFF, 0xFF, 0xFF, List.replicate 255 0xFF⟩ = true
      ∧ (let f : Frame := ⟨0, 0, 0, []⟩
         let bits := Frame.lineBits f
         f.wellFormed = true ∧ f.body.length ≤ 254 ∧ bits = bits.take 6 ++ false :: bits.drop 7
          ∧ bits = bits.take 7 ++ true :: bits.drop 8 ∧ (bits.take 7).length = 7 ∧ 8 ≤ (bits.drop 8).length
          ∧ (let n := bits.length
             bits = bits.take (n - 9) ++ bits.getD (n - 9) false :: bits.drop (n - 8) ∧ (bits.drop (n - 8)).length = 8
              ∧ bits = bits.take (n - 2) ++ true :: bits.drop (n - 1) ∧ (bits.drop (n - 1)).length = 1)) := by
  decide +kernel

/-- Each kind of record, with and without its optional fields, and an unknown kind of 31 bytes; the ends of the other ranges. -/
theorem witness_LinksCarryTheBytesAsSent :
    lengthFits 1 (0 :: List.replicate 9 0) = true ∧ lengthFits 1 (3 :: List.replicate 13 0) = true
      ∧ lengthFits 2 [0, 0, 0] = true ∧ lengthFits 2 [3, 0, 0, 0, 0, 0, 0] = true ∧ lengthFits 3 [0, 0, 0, 0] = true
      ∧ lengthFits 0x7F (List.replicate 31 0) = true ∧ (List.replicate 31 (0 : Byte)).length ≤ 31
      ∧ 1658 + 70 ≤ 1728 ∧ imageA.length = 128 ∧ 2 < 3 ∧ (List.replicate 1023 false).length < 1024 := by decide +kernel

/-- The properties that every step keeps hold in a state with a session and a compute in flight, so that no statement about
them speaks of reset alone. -/
theorem witness_SessionsStayInRange :
    (inStep (pad0 .charging)).ConfigInRange ∧ (inStep (pad0 .charging)).SessionsInRange := by
  refine ⟨?_, ?_⟩
  · unfold State.ConfigInRange PadsDistinct ResponsesAllowed
    intro _
    and_intros <;> decide +kernel
  · unfold State.SessionsInRange Session.InRange
    intro p
    and_intros <;> revert p <;> decide +kernel

theorem witness_PowerStaysSafe : PadsDistinct node1.cfg ∧ node1.PowerSafe := by
  unfold State.PowerSafe Port.PowerSafe PadsDistinct; decide +kernel

theorem witness_HeldPadsAreTheHeldSessions :
    (withEntry (pad0 .held) .overDraw ⟨.retryShort, true⟩ (some 4000) 2).FaultsSafe := by
  unfold State.FaultsSafe ResponsesAllowed PadFault.Safe InForce.Legal; decide +kernel

theorem witness_QueuesCountsAndRoundsStayInRange : (queued claimFrame).CountsInRange ∧ (queued claimFrame).RoundInRange :=
  ⟨⟨by unfold Line.CountsInRange; decide +kernel,
    by
      refine ⟨by decide, by decide, by decide, by decide, by decide, ?_, by decide, by decide, by decide, by decide⟩
      intro x hx
      have e : (queued claimFrame).tx.onLine = none := rfl
      simp [e] at hx, by decide, by decide⟩,
   by unfold State.RoundInRange; decide +kernel⟩

theorem witness_PeerTableStaysKept :
    let s := { inStep base with peers := base.peers.set 2 (live 40) }
    s.Dormant ∧ s.PeersKept :=
  ⟨fun h => absurd rfl h, by unfold State.PeersKept; decide +kernel⟩

/-- In step under a curtailment of 60 %, and a running part whose supply has fallen, with the reset at the front. -/
theorem witness_CeilingStaysBelowItsTarget :
    ({ base with pins := { base.pins with supply := 2849 }, pending := [.reset] }).ResetFollows ∧
    let s := { inStep base with curtail := { (inStep base).curtail with
      set := base.curtail.set.set 2 (some ⟨60, 1⟩), target := 4800, ceiling := 4000 } }
    s.ConfigInRange ∧ s.Dormant ∧ s.ResetFollows ∧ s.CurtailSafe :=
  ⟨fun _ => .inr rfl, by unfold State.ConfigInRange PadsDistinct ResponsesAllowed; intro _; and_intros <;> decide +kernel, fun h => absurd rfl h,
   by unfold State.ResetFollows; decide +kernel, by unfold State.CurtailSafe; decide +kernel⟩

theorem witness_ModeAndHealthFollowTheirOwners :
    let s := inStep base
    s.Dormant ∧ s.FaultsSafe ∧ s.ModeFollows ∧ s.HealthFollows ∧ s.SnapshotFollows :=
  ⟨fun h => absurd rfl h, by unfold State.FaultsSafe ResponsesAllowed PadFault.Safe InForce.Legal; decide +kernel,
   by unfold State.ModeFollows; decide +kernel, by unfold State.HealthFollows; decide +kernel,
   by unfold State.SnapshotFollows State.Settled; decide +kernel⟩

theorem witness_PinsFollowTheirRules : (inStep (pad0 .charging)).PinsFollow := by
  unfold State.PinsFollow State.HasEntry; decide +kernel

end Sys2Proof.Tests
end

section
/-! SUPPORT. The round boundary: what the Round Timer's own work makes of the round (R106, R109 to R114), that the other
blocks' work leaves it, and with both the statement BoundarySetsTheNextRound. -/

namespace Sys2Proof.Machine.RoundTiming

/-! ### The Round Timer at a boundary (R109 to R114) -/

theorem meanError_of_ne_nil {es : List Int} (h : es ≠ []) : meanError es = some (es.sum.tdiv es.length) := if_neg h

/-- The correction of CONTINUOUS mode stays under the round's 500 ms, so the new length is the difference itself. -/
theorem nextLength_continuous (window : Nat) (once : OnceState) (m : Int) :
    (nextLength .continuous window once (some m) : Int) =
      if window < m.natAbs then 500 - max (-25) (min 25 (m.tdiv 4)) else 500 := by
  have hle : continuousAdj m ≤ 500 := by unfold continuousAdj; omega
  simp only [nextLength]
  split
  · exact Int.toNat_of_nonneg (Int.sub_nonneg_of_le hle)
  · rfl

theorem nextLength_once (window : Nat) (once : OnceState) (m : Int) :
    (nextLength .once window once (some m) : Int) =
      if window < m.natAbs then if once = .aligning then ((500 - m).toNat : Int) else 500 else 500 := by
  have hlength : nextLength .once window once (some m) =
      if once = .aligning ∧ window < m.natAbs then (500 - m).toNat else 500 := rfl
  rw [hlength]
  by_cases hw : window < m.natAbs
  · by_cases ho : once = .aligning
    · rw [if_pos ⟨ho, hw⟩, if_pos hw, if_pos ho]
    · rw [if_neg (fun h => ho h.left), if_pos hw, if_neg ho, Int.cast_ofNat_Int]
  · rw [if_neg (fun h => hw h.right), if_neg hw, Int.cast_ofNat_Int]

theorem nextLength_none (align : AlignMode) (window : Nat) (once : OnceState) :
    nextLength align window once none = 500 := by cases align <;> rfl

theorem nextOnce_none (align : AlignMode) (once : OnceState) : nextOnce align once none = once := by simp [nextOnce]

theorem nextOnce_some (align : AlignMode) (once : OnceState) (m : Int) :
    nextOnce align once (some m) = if align = .once then .monitoring else once := by simp [nextOnce]

theorem phaseOutOf_eq_true_iff (window : Nat) (last : Option Int) :
    phaseOutOf window last = true ↔ ∃ m ∈ last, window < m.natAbs := by
  simp [phaseOutOf, Option.any_eq_true]

/-- A boundary to which no error is handed over. -/
theorem boundary_nil (r : Round) (align : AlignMode) (window : Nat) : r.boundary align window [] =
    { r with phase := 0, length := 500, count := (r.count + 1) % 256, mean := none
             phaseOut := phaseOutOf window r.lastMean, prevLength := r.length } := by
  simp [Round.boundary, meanError, nextLength_none, nextOnce_none]

/-- A boundary with a valid mean. -/
theorem boundary_of_ne_nil (r : Round) (align : AlignMode) (window : Nat) {es : List Int} (h : es ≠ []) :
    r.boundary align window es =
      let m := es.sum.tdiv es.length
      { phase := 0, length := nextLength align window r.once (some m), count := (r.count + 1) % 256
        mean := some m, lastMean := some m, once := if align = .once then .monitoring else r.once
        phaseOut := phaseOutOf window (some m), prevLength := r.length } := by
  simp [Round.boundary, meanError_of_ne_nil h, nextOnce_some]

theorem boundary_phaseOut_iff (r : Round) (align : AlignMode) (window : Nat) (es : List Int) :
    (r.boundary align window es).phaseOut = true ↔
      ∃ m ∈ (r.boundary align window es).lastMean, window < m.natAbs :=
  phaseOutOf_eq_true_iff window _

/-- The Round Timer's work touches the round, the phase errors and the report of PHASE_OUT. -/
theorem roundBoundary_frame (s : State) : s.roundBoundary =
    { s with round := s.round.boundary s.cfg.align s.cfg.window s.handedErrors
             peers := s.roundBoundary.peers, sup := s.roundBoundary.sup } := by
  unfold State.roundBoundary
  rw [State.reportHealth_frame]
  rfl

theorem roundBoundary_phaseErr (s : State) (id : NodeId) : s.roundBoundary.peers[id].phaseErr = none := by
  rw [State.roundBoundary, State.reportHealth_peers, State.dropPhaseErrors_peer]

/-! ### What the work of the other blocks leaves alone (R106) -/

/-- What the other blocks' work at a boundary leaves alone on the way from `s` to `t`: the round, the identity, the
configuration and the queue; of every port the stage record, the power figures, the faults and the session state; and no
absent phase error comes back. -/
structure Kept (s t : State) : Prop where
  frame : t = { s with choice := t.choice, ports := t.ports, line := t.line, tx := t.tx, peers := t.peers
                       curtail := t.curtail, engine := t.engine, sup := t.sup }
  port : ∀ p : PortId, t.ports[p].stage = s.ports[p].stage ∧ t.ports[p].alloc = s.ports[p].alloc
    ∧ t.ports[p].fault = s.ports[p].fault ∧ t.ports[p].session.state = s.ports[p].session.state
  absent : ∀ id : NodeId, s.peers[id].phaseErr = none → t.peers[id].phaseErr = none

namespace Kept

theorem refl (s : State) : Kept s s := ⟨rfl, fun _ => ⟨rfl, rfl, rfl, rfl⟩, fun _ h => h⟩

theorem trans {s t u : State} (h : Kept s t) (k : Kept t u) : Kept s u where
  frame := by
    have hk := k.frame
    rw [h.frame] at hk
    exact hk
  port p := by
    obtain ⟨hs, ha, hf, hx⟩ := h.port p
    obtain ⟨ks, ka, kf, kx⟩ := k.port p
    exact ⟨ks.trans hs, ka.trans ha, kf.trans hf, kx.trans hx⟩
  absent id e := k.absent id (h.absent id e)

/-- Work that touches no port and brings no phase error back. -/
theorem of_peers {s t : State}
    (frame : t = { s with choice := t.choice, line := t.line, tx := t.tx, peers := t.peers, curtail := t.curtail
                          engine := t.engine, sup := t.sup })
    (absent : ∀ id : NodeId, s.peers[id].phaseErr = none → t.peers[id].phaseErr = none) : Kept s t where
  frame := by
    have hports : t.ports = s.ports := by rw [frame]
    rw [hports]
    exact frame
  port p := by
    have hports : t.ports = s.ports := by rw [frame]
    rw [hports]
    exact ⟨rfl, rfl, rfl, rfl⟩
  absent := absent

/-- Work that touches neither a port nor the Peer Table. -/
theorem of_frame {s t : State}
    (frame : t = { s with choice := t.choice, line := t.line, tx := t.tx, curtail := t.curtail, engine := t.engine
                          sup := t.sup }) : Kept s t := by
  have hpeers : t.peers = s.peers := by rw [frame]
  refine of_peers ?_ fun id h => ?_
  · rw [hpeers]
    exact frame
  · rw [hpeers]
    exact h

end Kept

theorem judgeCeiling_kept (s : State) : Kept s s.judgeCeiling := .of_frame (by rw [State.judgeCeiling_frame])

theorem judgeMode_kept (s : State) : Kept s s.judgeMode := .of_frame (by rw [State.judgeMode_frame])

theorem settleHealth_kept (s : State) : Kept s s.settleHealth :=
  .of_frame (by rw [State.settleHealth_frame])

theorem retarget_kept (s : State) : Kept s s.retarget := .of_frame rfl

theorem placeCurtail_kept (s : State) (a : Bool) : Kept s (s.placeCurtail a) := .of_frame rfl

@[simp] theorem agePeers_phaseErr (s : State) (id : NodeId) :
    s.agePeers.peers[id].phaseErr = s.peers[id].phaseErr := by
  rw [State.agePeers_peer]
  split <;> rfl

@[simp] theorem losePeers_phaseErr (s : State) (id : NodeId) :
    s.losePeers.peers[id].phaseErr = s.peers[id].phaseErr := by
  rw [State.losePeers_peer]
  split <;> rfl

@[simp] theorem judgeCeiling_peers (s : State) : s.judgeCeiling.peers = s.peers := by
  rw [State.judgeCeiling_frame]

@[simp] theorem judgeMode_peers (s : State) : s.judgeMode.peers = s.peers := by rw [State.judgeMode_frame]

/-- After a HUNT entry no entry holds a phase error (R103). -/
theorem huntEntry_phaseErr (s : State) (id : NodeId) : s.huntEntry.peers[id].phaseErr = none := by
  unfold State.huntEntry
  simp only [judgeMode_peers, State.reportHealth_peers, judgeCeiling_peers, State.retarget_peers,
    State.dropPhaseErrors_engine]
  by_cases h : s.engine.inFlight.isSome = true
  · simp only [h, if_true, State.dropPhaseErrors_peer]
  · simp only [h, if_false, Bool.false_eq_true, losePeers_phaseErr, State.dropPhaseErrors_peer]

theorem huntEntry_kept (s : State) : Kept s s.huntEntry :=
  .of_peers (by rw [State.huntEntry_frame]) fun id _ => huntEntry_phaseErr s id

/-- A compute start evaluates the figures of the sessions and leaves their states (R33 to R35). -/
theorem startCompute_kept (s : State) (kind : ComputeKind) : Kept s (s.startCompute kind) where
  frame := rfl
  port p := by
    rw [State.startCompute_get]
    split <;> exact ⟨rfl, rfl, rfl, rfl⟩
  absent _ h := h

/-! ### Each block's work (R106) -/

theorem peerBoundary_kept (s : State) : Kept s s.peerBoundary := by
  unfold State.peerBoundary
  split
  · exact .of_frame rfl
  · exact .of_peers rfl fun id h => (agePeers_phaseErr s id).trans h

theorem curtailBoundary_kept (s : State) : Kept s s.curtailBoundary := by
  unfold State.curtailBoundary
  have hset : ∀ (u : State) (m : CurtailMonitor), Kept u { u with curtail := m } := fun _ _ => .of_frame rfl
  have htarget : Kept s (State.retarget { s with curtail := s.curtail.ageSet }) :=
    (hset s _).trans (retarget_kept _)
  have hramp := fun m => (htarget.trans (hset _ m)).trans (judgeCeiling_kept _)
  split
  · exact (hramp _).trans (placeCurtail_kept _ true)
  · exact hramp _

theorem announceBoundary_kept (s : State) : Kept s s.announceBoundary := by
  unfold State.announceBoundary
  split <;> exact .of_frame rfl

theorem silenceBoundary_kept (s : State) : Kept s s.silenceBoundary := by
  unfold State.silenceBoundary
  have hcount : ∀ l : Line, Kept s { s with line := l } := fun _ => .of_frame rfl
  split
  · dsimp only
    split
    · exact .trans (hcount _) (huntEntry_kept _)
    · exact hcount _
  · exact .refl s

theorem spanBoundary_kept (s : State) : Kept s s.spanBoundary :=
  .trans (.of_frame rfl) (judgeMode_kept _)

theorem lineBoundary_kept (s : State) : Kept s s.lineBoundary := by
  have hlast : ∀ u : State, Kept u u.silenceBoundary.spanBoundary.announceBoundary := fun u =>
    .trans (silenceBoundary_kept u) (.trans (spanBoundary_kept _) (announceBoundary_kept _))
  have hfirst : ∀ u : State, Kept u u.announceBoundary.silenceBoundary.spanBoundary := fun u =>
    .trans (announceBoundary_kept u) (.trans (silenceBoundary_kept _) (spanBoundary_kept _))
  have hfree : Kept s { s with choice := s.choice + 1 } := .of_frame rfl
  unfold State.lineBoundary
  dsimp only
  split
  · split
    · exact hfree.trans (hfirst _)
    · exact hfree.trans (hlast _)
  · exact hlast s

theorem supervisorBoundary_kept (s : State) : Kept s s.supervisorBoundary := by
  have hlatch : Kept s (if s.sup.latched ∧ s.sup.outstanding = false then s.placeLatchStatus else s) := by
    split
    · exact .of_frame rfl
    · exact .refl s
  refine hlatch.trans ?_
  unfold State.supervisorBoundary
  generalize (if s.sup.latched ∧ s.sup.outstanding = false then s.placeLatchStatus else s) = u
  dsimp only
  split
  · split <;> exact .of_frame rfl
  · exact .of_frame rfl

theorem engineBoundary_kept (s : State) : Kept s s.engineBoundary := by
  have hstart : ∀ (n : Nat) (e : Engine) (kind : ComputeKind),
      Kept s (State.startCompute { s with choice := n, engine := e } kind) := fun _ _ kind =>
    .trans (.of_frame rfl) (startCompute_kept _ kind)
  unfold State.engineBoundary
  dsimp only
  split
  · exact .of_frame rfl
  · split
    · split
      · exact .trans (hstart _ _ .outOfRound) (.of_frame rfl)
      · exact .trans (hstart _ _ .regular) (.of_frame rfl)
    · exact hstart _ _ .regular

/-- ROUND_BOUNDARY in a running part is the Round Timer's work, and what follows keeps the new round (R106). -/
theorem exec_roundBoundary_kept {s : State} (h : s.boot = .running) :
    Completes (exec .roundBoundary s) fun t => Kept s.roundBoundary t := by
  refine ⟨_, if_pos h, ?_⟩
  exact .trans (peerBoundary_kept _) <| .trans (curtailBoundary_kept _) <|
    .trans (lineBoundary_kept _) <| .trans (settleHealth_kept _) <|
    .trans (supervisorBoundary_kept _) <| .trans (engineBoundary_kept _) (.of_frame rfl)

/-- Settles O39: the Round Timer's work gives the new round, and the other blocks' work at the boundary keeps it. -/
theorem boundarySetsTheNextRound : Obligations.BoundarySetsTheNextRound := by
  intro s hrun
  obtain ⟨t, ht, hframe, hport, habsent⟩ := exec_roundBoundary_kept hrun
  have hports : s.roundBoundary.ports = s.ports := by rw [roundBoundary_frame]
  rw [hports] at hport
  rw [roundBoundary_frame] at hframe
  have hround : t.round = s.round.boundary s.cfg.align s.cfg.window s.handedErrors := by rw [hframe]
  refine ⟨t, ht, ?_⟩
  simp only [hround]
  refine ⟨rfl, rfl, fun (hnone : s.handedErrors = []) => ?_, fun (hsome : s.handedErrors ≠ []) => ?_,
    boundary_phaseOut_iff .., fun id => habsent id (roundBoundary_phaseErr s id), by rw [hframe], by rw [hframe],
    by rw [hframe], by rw [hframe], by rw [hframe], by rw [hframe], by rw [hframe], hport⟩
  case refine_1 =>
    rw [hnone, boundary_nil]
    exact ⟨rfl, rfl, rfl, rfl⟩
  case refine_2 =>
    rw [boundary_of_ne_nil _ _ _ hsome]
    refine ⟨rfl, rfl, rfl, ?_⟩
    cases s.cfg.align with
    | continuous => exact nextLength_continuous _ s.round.once _
    | once => exact nextLength_once _ s.round.once _
    | monitor => exact (ite_self _).symm

end Sys2Proof.Machine.RoundTiming
end
